-- ==== Sys2Proof/Word.lean ====
section
/-! DEFINITION. The machine's words: the 32-bit register word (spec/10_state.md section 3, spec/00_scope.md R6
REG_WIDTH and TIME_WIDTH), the 48-bit step record (spec/30_encoding.md R94) and exact integer division (R9). -/

namespace Sys2Proof

/-- A register's value, and a command word: 32 bits (spec/00_scope.md R6, spec/30_encoding.md R91). -/
abbrev Word := BitVec 32

/-- A step record: 48 bits (spec/30_encoding.md R94). -/
abbrev Record := BitVec 48

/-- A byte offset into the register window: 8 bits (spec/30_encoding.md R94, R97). -/
abbrev Offset := BitVec 8

/-- `ceil_div(a, b)`: the least integer `q` with `q * b ≥ a`, for `b > 0` (spec/00_scope.md R9). -/
def ceilDiv (a b : Nat) : Nat := (a + b - 1) / b

end Sys2Proof
end

