-- ==== Sys2Proof/Config.lean ====
section
/-! DEFINITION. The parameters of spec/00_scope.md R6 and R7: the normative constants under their spec names, and the
two OPEN parameters as constants without a body (log entries 5 and 6). -/

namespace Sys2Proof.Config

/-- PLL_MIN, in Hz (spec/00_scope.md R6). -/
def pllMin : Nat := 600000000

/-- PLL_MAX, in Hz (spec/00_scope.md R6). -/
def pllMax : Nat := 900000000

/-- R_LOW, the lowest admissible divider after clamping (spec/00_scope.md R6). -/
def rLow : Nat := 4

/-- R_HIGH, the highest admissible divider after clamping (spec/00_scope.md R6). -/
def rHigh : Nat := 900

/-- R_MULT: a divider is a multiple of this (spec/00_scope.md R6). -/
def rMult : Nat := 4

/-- PHASE_MAX, the largest value of the 7-bit phase register (spec/00_scope.md R6). -/
def phaseMax : Nat := 127

/-- ENC_MIN_INTERVAL_US, the encoder's minimum inter-edge interval in microseconds (spec/00_scope.md R6). -/
def encMinIntervalUs : Nat := 500

/-- DCLK_WINDOW_US, the mode pin's double-click window in microseconds (spec/00_scope.md R6). -/
def dclkWindowUs : Nat := 350000

/-- WINDOW_BYTES, the size of the register window (spec/00_scope.md R6). -/
def windowBytes : Nat := 0x40

/-- FREQ_MIN, in Hz: the store's range, informative for the block (spec/00_scope.md R6). -/
def freqMin : Nat := 100000

/-- FREQ_MAX, in Hz: the store's range, informative for the block (spec/00_scope.md R6). -/
def freqMax : Nat := 220000000

/-- OFFSET_MIN, in Hz: the store's range, informative for the block (spec/00_scope.md R6). -/
def offsetMin : Int := -2000000

/-- OFFSET_MAX, in Hz: the store's range, informative for the block (spec/00_scope.md R6). -/
def offsetMax : Int := 2000000

/-- The values ENC_EDGE_SENSE ranges over (spec/92_eei_decisions.md D11). -/
inductive EdgeSense where
  /-- rising edges of line A are sensitive -/
  | rising
  /-- falling edges of line A are sensitive -/
  | falling
  /-- both edges of line A are sensitive -/
  | both
deriving DecidableEq, Repr, Inhabited

/-- ENC_EDGE_SENSE, OPEN (spec/00_scope.md R6, spec/93_implementation_defined.md I2): no rule of the block reads it.
Log entry 5. -/
opaque encEdgeSense : EdgeSense

/-- BLOCK_BASE, OPEN (spec/00_scope.md R6, spec/93_implementation_defined.md I3): the window's base address on the
host's bus; no rule of the block reads it. Log entry 5. -/
opaque blockBase : Nat

end Sys2Proof.Config
end

