-- ==== Sys2Proof/Syntax.lean ====
section
/-! DEFINITION. The instructions: one constructor per row of spec/opcode_table.json, the two formats they are encoded
in (spec/30_encoding.md R90), the agents that take them (spec/10_state.md R31), the names of the window's registers
(spec/10_state.md R34), and the reasons an encoding is refused (spec/30_encoding.md R93, R95). -/

namespace Sys2Proof

/-- The instructions of spec/opcode_table.json: eight step kinds (spec/30_encoding.md R96) and four commands
(spec/30_encoding.md R92). -/
inductive Instr where
  /-- RD: the host reads the register at `off` (spec/40_register_access.md R110) -/
  | rd (off : Offset)
  /-- WR: the host writes `v` to the register at `off` (spec/40_register_access.md R112) -/
  | wr (off : Offset) (v : Word)
  /-- EDGE_A: one sensitive edge of encoder line A (spec/42_input_events.md R172) -/
  | edgeA
  /-- SET_ENCB: the companion line takes `level` (spec/42_input_events.md R177) -/
  | setEncb (level : Bool)
  /-- SET_BTN: the main button line takes `level` (spec/42_input_events.md R178) -/
  | setBtn (level : Bool)
  /-- SET_MODE: the mode pin takes `level` (spec/42_input_events.md R179) -/
  | setMode (level : Bool)
  /-- ADVANCE: the timebase advances by `d` microseconds (spec/42_input_events.md R171) -/
  | advance (d : Word)
  /-- RESET: the reset input (spec/70_reset_and_hazards.md R240) -/
  | reset
  /-- NOP, command word 0 (spec/40_register_access.md R117) -/
  | nop
  /-- PLAN, command word 1 (spec/41_synthesis.md R130) -/
  | plan
  /-- SAMPLE, command word 2 (spec/42_input_events.md R185) -/
  | sample
  /-- ENC_TAKE, command word 3 (spec/42_input_events.md R180) -/
  | encTake
deriving DecidableEq, Repr

/-- The four agents (spec/10_state.md R31). -/
inductive Agent where
  /-- HOST, the consumer -/
  | host
  /-- ENC, the encoder edge detector -/
  | enc
  /-- ENV, the physical world and the timebase -/
  | env
  /-- RST, the reset input -/
  | rst
deriving DecidableEq, Repr

/-- The agent whose step an instruction is (spec/10_state.md R31, spec/30_encoding.md R96); a command is a step of
HOST, the writer of CMD (spec/40_register_access.md R113, spec/60_exceptions.md R221). -/
def Instr.agent : Instr → Agent
  | .rd _ => .host
  | .wr _ _ => .host
  | .edgeA => .enc
  | .setEncb _ => .env
  | .setBtn _ => .env
  | .setMode _ => .env
  | .advance _ => .env
  | .reset => .rst
  | .nop => .host
  | .plan => .host
  | .sample => .host
  | .encTake => .host

/-- An instruction's encoding, in one of the two fixed formats (spec/30_encoding.md R90). -/
inductive Encoding where
  /-- format STEP: a 48-bit step record (spec/30_encoding.md R94) -/
  | record (r : Record)
  /-- format CMD: a 32-bit command word, the data of a WR to CMD (spec/30_encoding.md R91) -/
  | command (w : Word)
deriving DecidableEq, Repr

/-- Why an encoding is refused. Each constructor is a reason of spec/30_encoding.md R95, but for `illegalCommand`,
which is R93's: the decoder refuses such a word, and a WR of it to CMD raises IllegalCommand. Which name is given to a
record that has several of these faults is the model's choice (log entry 13). -/
inductive DecodeError where
  /-- KIND in 8 to 15 -/
  | unknownKind
  /-- RSV ≠ 0 -/
  | reservedBits
  /-- RD or WR, OFFSET not a multiple of 4 or not below 0x40 -/
  | badOffset
  /-- OFFSET ≠ 0 where the row has none -/
  | unusedOffset
  /-- DATA bits nonzero that the row does not use -/
  | unusedData
  /-- a command word outside the map of R92 -/
  | illegalCommand
deriving DecidableEq, Repr

/-- The sixteen word registers of the window (spec/10_state.md R34). -/
inductive Reg where
  | cmd | coreStatus | cfg | time | spFreq | spOffset | spStatus | spFout
  | spPll | spDiv | spPhase | encSnap | evt | pins | reserved38 | reserved3C
deriving DecidableEq, Repr

end Sys2Proof
end

