-- ==== Sys2Proof/WellFormed.lean ====
section
/-! DEFINITION. The check an instruction's operands must pass to have an encoding: RD and WR name an aligned offset
inside the window (spec/20_memory.md R73); every other operand is admitted at every value (spec/30_encoding.md R97). -/

namespace Sys2Proof

/-- `off mod 4 = 0` and `off < 0x40` (spec/20_memory.md R73). -/
def offsetAdmitted (off : Offset) : Bool :=
  decide (off.toNat % 4 = 0) && decide (off.toNat < Config.windowBytes)

/-- An instruction whose operands the spec admits (spec/20_memory.md R73, spec/30_encoding.md R97). -/
def Instr.wellFormed : Instr → Bool
  | .rd off => offsetAdmitted off
  | .wr off _ => offsetAdmitted off
  | .edgeA => true
  | .setEncb _ => true
  | .setBtn _ => true
  | .setMode _ => true
  | .advance _ => true
  | .reset => true
  | .nop => true
  | .plan => true
  | .sample => true
  | .encTake => true

end Sys2Proof
end

