-- ==== Sys2Proof/Decode.lean ====
section
/-! DEFINITION. The decoder and the encoder of both formats (spec/30_encoding.md R90 to R97), the step-record map as
data (R96), and the host's reading of a table word (log entries 7 and 8). -/

namespace Sys2Proof

/-! ## The fields of a step record (spec/30_encoding.md R94) -/

/-- KIND, bits [47:44]. -/
def recordKind (r : Record) : BitVec 4 := r.extractLsb' 44 4

/-- RSV, bits [43:40]. -/
def recordRsv (r : Record) : BitVec 4 := r.extractLsb' 40 4

/-- OFFSET, bits [39:32]. -/
def recordOffset (r : Record) : Offset := r.extractLsb' 32 8

/-- DATA, bits [31:0]. -/
def recordData (r : Record) : Word := r.extractLsb' 0 32

/-- `0xKROODDDDDDDD` from its four fields (spec/30_encoding.md R94). -/
def packRecord (kind rsv : BitVec 4) (off : Offset) (data : Word) : Record :=
  kind ++ rsv ++ off ++ data

/-! ## Decoding -/

/-- A record with neither operand: EDGE_A and RESET (spec/30_encoding.md R95). -/
def decodeBare (off : Offset) (data : Word) (i : Instr) : Except DecodeError Instr :=
  if off ≠ 0 then .error .unusedOffset else if data ≠ 0 then .error .unusedData else .ok i

/-- A record whose one operand is `level = DATA[0]`: SET_ENCB, SET_BTN, SET_MODE (spec/30_encoding.md R95, R97). -/
def decodeLevel (off : Offset) (data : Word) (i : Bool → Instr) : Except DecodeError Instr :=
  if off ≠ 0 then .error .unusedOffset
  else if data.extractLsb' 1 31 ≠ 0 then .error .unusedData
  else .ok (i (data.getLsbD 0))

/-- Decode a step record, or refuse it by name (spec/30_encoding.md R95 to R97). -/
def decodeRecord (r : Record) : Except DecodeError Instr :=
  if recordRsv r ≠ 0 then .error .reservedBits
  else
    let off := recordOffset r
    let data := recordData r
    match (recordKind r).toNat with
    | 0 =>
      if !offsetAdmitted off then .error .badOffset
      else if data ≠ 0 then .error .unusedData else .ok (.rd off)
    | 1 => if !offsetAdmitted off then .error .badOffset else .ok (.wr off data)
    | 2 => decodeBare off data .edgeA
    | 3 => decodeLevel off data .setEncb
    | 4 => decodeLevel off data .setBtn
    | 5 => decodeLevel off data .setMode
    | 6 => if off ≠ 0 then .error .unusedOffset else .ok (.advance data)
    | 7 => decodeBare off data .reset
    | _ => .error .unknownKind

/-- Decode a command word, compared as a whole 32-bit value (spec/30_encoding.md R91 to R93). -/
def decodeCommand (w : Word) : Except DecodeError Instr :=
  match w.toNat with
  | 0 => .ok .nop
  | 1 => .ok .plan
  | 2 => .ok .sample
  | 3 => .ok .encTake
  | _ => .error .illegalCommand

/-- Decode an encoding of either format; the format is known, never guessed (spec/30_encoding.md R90). -/
def decode : Encoding → Except DecodeError Instr
  | .record r => decodeRecord r
  | .command w => decodeCommand w

/-! ## Encoding -/

/-- DATA of a SET_* record: the level in bit 0 (spec/30_encoding.md R97). -/
def levelData (level : Bool) : Word := if level then 1 else 0

/-- The encoding of an instruction (spec/30_encoding.md R92, R94, R96, R97). -/
def encode : Instr → Encoding
  | .rd off => .record (packRecord 0 0 off 0)
  | .wr off v => .record (packRecord 1 0 off v)
  | .edgeA => .record (packRecord 2 0 0 0)
  | .setEncb level => .record (packRecord 3 0 0 (levelData level))
  | .setBtn level => .record (packRecord 4 0 0 (levelData level))
  | .setMode level => .record (packRecord 5 0 0 (levelData level))
  | .advance d => .record (packRecord 6 0 0 d)
  | .reset => .record (packRecord 7 0 0 0)
  | .nop => .command 0
  | .plan => .command 1
  | .sample => .command 2
  | .encTake => .command 3

/-- The step record that brings an encoding to the block: a record is itself, a command word is the data of a WR to
CMD (spec/30_encoding.md R90, spec/40_register_access.md R113). -/
def carryingRecord : Encoding → Record
  | .record r => r
  | .command w => packRecord 1 0 0 w

/-! ## The step-record map as data (spec/30_encoding.md R96) -/

/-- The rows of R96: mnemonic, match, mask. -/
def recordRows : List (String × Record × Record) :=
  [ ("RD",       0x000000000000, 0xFFC3FFFFFFFF),
    ("WR",       0x100000000000, 0xFFC300000000),
    ("EDGE_A",   0x200000000000, 0xFFFFFFFFFFFF),
    ("SET_ENCB", 0x300000000000, 0xFFFFFFFFFFFE),
    ("SET_BTN",  0x400000000000, 0xFFFFFFFFFFFE),
    ("SET_MODE", 0x500000000000, 0xFFFFFFFFFFFE),
    ("ADVANCE",  0x600000000000, 0xFFFF00000000),
    ("RESET",    0x700000000000, 0xFFFFFFFFFFFF) ]

/-- The rows of R92: mnemonic and command word. -/
def commandRows : List (String × Word) :=
  [("NOP", 0x00000000), ("PLAN", 0x00000001), ("SAMPLE", 0x00000002), ("ENC_TAKE", 0x00000003)]

/-- The record equals the row's match under the row's mask (spec/30_encoding.md R95, R96). -/
def rowMatches (r : Record) (row : String × Record × Record) : Bool :=
  decide (r &&& row.2.2 = row.2.1)

/-- The mnemonics of the rows a record matches. -/
def matchingRows (r : Record) : List String :=
  (recordRows.filter (rowMatches r)).map (·.1)

/-- The row of spec/opcode_table.json an instruction stands for. -/
def Instr.mnemonic : Instr → String
  | .rd _ => "RD"
  | .wr _ _ => "WR"
  | .edgeA => "EDGE_A"
  | .setEncb _ => "SET_ENCB"
  | .setBtn _ => "SET_BTN"
  | .setMode _ => "SET_MODE"
  | .advance _ => "ADVANCE"
  | .reset => "RESET"
  | .nop => "NOP"
  | .plan => "PLAN"
  | .sample => "SAMPLE"
  | .encTake => "ENC_TAKE"

/-! ## The host's table words -/

/-- A table word of `nbits` bits as an encoding: 48 bits is format STEP, 32 bits is format CMD
(spec/30_encoding.md R90). Log entry 8. -/
def tableEncoding (nbits w : Nat) : Option Encoding :=
  if 2 ^ nbits ≤ w then none
  else if nbits = 48 then some (.record (BitVec.ofNat 48 w))
  else if nbits = 32 then some (.command (BitVec.ofNat 32 w))
  else none

/-- What the decoder reads from a table word (none where it refuses). -/
def decodeTableWord (nbits w : Nat) : Option Instr :=
  (tableEncoding nbits w).bind fun e => (decode e).toOption

/-- The step record that makes the block run a table word; a word that is no encoding becomes a record with the same
low bits. Log entry 8. -/
def tableRecord (nbits w : Nat) : Record :=
  ((tableEncoding nbits w).map carryingRecord).getD (BitVec.ofNat 48 w)

end Sys2Proof
end

