-- ==== Sys2Proof/Machine/State.lean ====
section
/-! DEFINITION. The machine's state: every element of spec/10_state.md R57, and two fields of the model's own, the
schedule still to be taken and the value the last step returned (log entries 2 and 3); the reset state
(spec/10_state.md R57, spec/70_reset_and_hazards.md R240, R242); one update per field. -/

namespace Sys2Proof.Machine

/-- SP_STATUS.LOCK (spec/10_state.md R41). -/
inductive LockStatus where
  /-- 0: no PLAN has completed since reset -/
  | none
  /-- 1: a plan with exact 90° -/
  | locked
  /-- 2: a plan with capped phase -/
  | phaseLimited
  /-- 3: Unreachable -/
  | noLock
deriving DecidableEq, Repr

/-- The plan registers, written together by a successful PLAN (spec/10_state.md R42 to R45). -/
structure PlanRegs where
  /-- SP_FOUT -/
  fout : Word
  /-- SP_PLL -/
  pll : Word
  /-- SP_DIV.R, bits [9:0] -/
  r : BitVec 10
  /-- SP_PHASE.STEPS, bits [6:0] -/
  steps : BitVec 7
  /-- SP_PHASE.CAPPED, bit 8 -/
  capped : Bool
deriving DecidableEq, Repr

/-- One encoder step slot, direction 1 = increase: the mailbox (spec/10_state.md R50) and its snapshot ENC_SNAP
(R46). -/
structure Slot where
  pending : Bool
  dir : Bool
deriving DecidableEq, Repr

/-- A remembered TIME and whether one has been recorded since reset (spec/10_state.md R51, R54). -/
structure Reference where
  valid : Bool
  last : Word
deriving DecidableEq, Repr

/-- EVT's three bits (spec/10_state.md R47). -/
structure Events where
  btnClick : Bool
  modeSingle : Bool
  modeDouble : Bool
deriving DecidableEq, Repr

/-- The levels of the three lines the environment owns, 1 = active (spec/10_state.md R30). -/
structure Lines where
  encb : Bool
  btn : Bool
  mode : Bool
deriving DecidableEq, Repr

/-- The state of the block and its environment (spec/10_state.md R57), with the model's own `schedule` and
`readData`. -/
structure State where
  /-- CORE_STATUS.ILL_CMD (R36) -/
  illCmd : Bool
  /-- CFG.DIR_INVERT (R37) -/
  dirInvert : Bool
  /-- TIME (R38) -/
  time : Word
  /-- SP_FREQ (R39) -/
  spFreq : Word
  /-- SP_OFFSET (R40) -/
  spOffset : Word
  /-- SP_STATUS.LOCK (R41) -/
  lock : LockStatus
  /-- SP_FOUT, SP_PLL, SP_DIV, SP_PHASE (R42 to R45) -/
  plan : PlanRegs
  /-- ENC_SNAP (R46) -/
  snap : Slot
  /-- EVT (R47) -/
  evt : Events
  /-- pin.ENCB, pin.BTN, pin.MODE (R30, R48) -/
  lines : Lines
  /-- st.mbox_pending, st.mbox_dir (R50) -/
  mbox : Slot
  /-- st.enc_valid, st.enc_last (R51) -/
  enc : Reference
  /-- st.btn_prev (R52) -/
  btnPrev : Bool
  /-- st.mode_prev (R53) -/
  modePrev : Bool
  /-- st.rel_valid, st.rel_last (R54) -/
  rel : Reference
  /-- the MODEL's own: the step records still to be taken, the next one first (R33; log entry 2) -/
  schedule : List Record
  /-- the MODEL's own: the value the last step returned to the host (spec/00_scope.md R11; log entry 3) -/
  readData : Option Word
deriving DecidableEq, Repr

/-- Why a step ends the machine with a fault: no step does. The spec's one fault, IllegalCommand, does not stop the
block: it is a next state with ILL_CMD set (spec/60_exceptions.md R210, R211; log entry 1). Safe: nothing is lost,
since a faulted state is told apart by that bit. -/
inductive Fault where
deriving DecidableEq, Repr

/-- Why a step has no meaning (spec/00_scope.md R11, spec/60_exceptions.md R213). All are safe: no state follows, so no
claim about a next state can rest on one. -/
inductive Refusal where
  /-- raised by a dispatch arm whose instruction has no meaning yet; none is left -/
  | notModelled (mnemonic : String)
  /-- raised by `step` when the schedule holds no further record: the run as loaded is over (log entry 2) -/
  | scheduleEmpty
  /-- raised by `step` on a record outside the map of spec/30_encoding.md R96 -/
  | inadmissibleRecord (why : DecodeError)
  /-- raised by RD and WR on an offset that spec/20_memory.md R73 does not admit; no decoded record carries one -/
  | inadmissibleOffset (off : Offset)
deriving DecidableEq, Repr

/-- The outcome of a step of this machine. -/
abbrev Result := Host.Outcome State Fault Refusal

/-- The plan registers right after reset (spec/10_state.md R57). -/
def PlanRegs.reset : PlanRegs := ⟨0, 0, 0, 0, false⟩

/-- The state right after RESET with the lines at the levels the environment holds them at
(spec/10_state.md R57, spec/70_reset_and_hazards.md R240, R242). -/
def State.resetWith (lines : Lines) : State where
  illCmd := false
  dirInvert := false
  time := 0
  spFreq := 0
  spOffset := 0
  lock := .none
  plan := .reset
  snap := ⟨false, false⟩
  evt := ⟨false, false, false⟩
  lines := lines
  mbox := ⟨false, false⟩
  enc := ⟨false, 0⟩
  btnPrev := false
  modePrev := false
  rel := ⟨false, 0⟩
  schedule := []
  readData := Option.none

/-- The machine right after reset (spec/10_state.md R57), with the three lines inactive: DESIGN CHOICE, since the
lines are not reset and their levels are any value (spec/70_reset_and_hazards.md R242; log entry 4). -/
def State.reset : State := .resetWith ⟨false, false, false⟩

/-! ## One update per field -/

def State.withIllCmd (s : State) (x : Bool) : State := { s with illCmd := x }
def State.withDirInvert (s : State) (x : Bool) : State := { s with dirInvert := x }
def State.withTime (s : State) (x : Word) : State := { s with time := x }
def State.withSpFreq (s : State) (x : Word) : State := { s with spFreq := x }
def State.withSpOffset (s : State) (x : Word) : State := { s with spOffset := x }
def State.withLock (s : State) (x : LockStatus) : State := { s with lock := x }
def State.withPlan (s : State) (x : PlanRegs) : State := { s with plan := x }
def State.withSnap (s : State) (x : Slot) : State := { s with snap := x }
def State.withEvt (s : State) (x : Events) : State := { s with evt := x }
def State.withLines (s : State) (x : Lines) : State := { s with lines := x }
def State.withMbox (s : State) (x : Slot) : State := { s with mbox := x }
def State.withEnc (s : State) (x : Reference) : State := { s with enc := x }
def State.withBtnPrev (s : State) (x : Bool) : State := { s with btnPrev := x }
def State.withModePrev (s : State) (x : Bool) : State := { s with modePrev := x }
def State.withRel (s : State) (x : Reference) : State := { s with rel := x }
def State.withSchedule (s : State) (x : List Record) : State := { s with schedule := x }
def State.withReadData (s : State) (x : Option Word) : State := { s with readData := x }

end Sys2Proof.Machine
end

