-- ==== Sys2Proof/Machine/Flags.lean ====
section
/-! DEFINITION. The flag computations: what decides each event, status and acceptance bit (spec/10_state.md R55). -/

namespace Sys2Proof.Machine

/-- `(now - earlier) mod 2^32`, the elapsed time of every comparison of the IED (spec/10_state.md R38). -/
def elapsed (now earlier : Word) : Nat := (now - earlier).toNat

/-- An edge is accepted when none has been since reset, or at least 500 µs after the last accepted one
(spec/42_input_events.md R173). -/
def edgeAccepted (enc : Reference) (now : Word) : Bool :=
  !enc.valid || decide (Config.encMinIntervalUs ≤ elapsed now enc.last)

/-- `dir = pin.ENCB ^ CFG.DIR_INVERT`, 1 = increase (spec/42_input_events.md R174). -/
def edgeDirection (encb dirInvert : Bool) : Bool := encb ^^ dirInvert

/-- BTN_CLICK: the previous SAMPLE saw the line active and this one sees it inactive (spec/42_input_events.md R187). -/
def buttonClick (prev now : Bool) : Bool := prev && !now

/-- A release of the mode pin (spec/42_input_events.md R189). -/
def modeRelease (prev now : Bool) : Bool := prev && !now

/-- A prior release lies within the double-click window, strictly (spec/42_input_events.md R190). -/
def withinWindow (rel : Reference) (now : Word) : Bool :=
  rel.valid && decide (elapsed now rel.last < Config.dclkWindowUs)

/-- MODE_SINGLE (spec/42_input_events.md R190). -/
def modeSingle (released within : Bool) : Bool := released && !within

/-- MODE_DOUBLE (spec/42_input_events.md R190). -/
def modeDouble (released within : Bool) : Bool := released && within

/-- CAPPED: the divider does not fit the phase register (spec/41_synthesis.md R141). -/
def phaseCapped (r : Nat) : Bool := decide (Config.phaseMax < r)

/-- LOCK after a successful PLAN (spec/41_synthesis.md R145). -/
def lockOfPlan (capped : Bool) : LockStatus := if capped then .phaseLimited else .locked

end Sys2Proof.Machine
end

