-- ==== Sys2Proof/Machine/Operands.lean ====
section
/-! DEFINITION. Operands: the register an offset names, the words the registers' fields make up
(spec/10_state.md R34 to R49, spec/40_register_access.md R110), and the integers PLAN reads from its inputs
(spec/30_encoding.md R98). -/

namespace Sys2Proof.Machine

/-- The register an admitted offset names (spec/10_state.md R34, spec/40_register_access.md R110); none for an offset
the spec does not admit (spec/20_memory.md R73). -/
def regOfOffset (off : Offset) : Option Reg :=
  match off.toNat with
  | 0x00 => some .cmd
  | 0x04 => some .coreStatus
  | 0x08 => some .cfg
  | 0x0C => some .time
  | 0x10 => some .spFreq
  | 0x14 => some .spOffset
  | 0x18 => some .spStatus
  | 0x1C => some .spFout
  | 0x20 => some .spPll
  | 0x24 => some .spDiv
  | 0x28 => some .spPhase
  | 0x2C => some .encSnap
  | 0x30 => some .evt
  | 0x34 => some .pins
  | 0x38 => some .reserved38
  | 0x3C => some .reserved3C
  | _ => none

/-- The offset of a register (spec/10_state.md R34). -/
def regOffset : Reg → Offset
  | .cmd => 0x00
  | .coreStatus => 0x04
  | .cfg => 0x08
  | .time => 0x0C
  | .spFreq => 0x10
  | .spOffset => 0x14
  | .spStatus => 0x18
  | .spFout => 0x1C
  | .spPll => 0x20
  | .spDiv => 0x24
  | .spPhase => 0x28
  | .encSnap => 0x2C
  | .evt => 0x30
  | .pins => 0x34
  | .reserved38 => 0x38
  | .reserved3C => 0x3C

/-- One bit as a 1-bit field. -/
def bit (b : Bool) : BitVec 1 := BitVec.ofBool b

/-- The 2-bit code of LOCK (spec/10_state.md R41). -/
def lockCode : LockStatus → BitVec 2
  | .none => 0
  | .locked => 1
  | .phaseLimited => 2
  | .noLock => 3

/-- SP_PHASE: CAPPED in bit 8, bit 7 zero, STEPS in bits [6:0] (spec/10_state.md R45, spec/40_register_access.md
R110). -/
def phaseWord (p : PlanRegs) : Word := (bit p.capped ++ (0 : BitVec 1) ++ p.steps).setWidth 32

/-- ENC_SNAP: DIR in bit 1, PENDING in bit 0 (spec/10_state.md R46). -/
def snapWord (s : Slot) : Word := (bit s.dir ++ bit s.pending).setWidth 32

/-- EVT: MODE_DOUBLE, MODE_SINGLE, BTN_CLICK in bits 2, 1, 0 (spec/10_state.md R47). -/
def evtWord (e : Events) : Word := (bit e.modeDouble ++ bit e.modeSingle ++ bit e.btnClick).setWidth 32

/-- PINS: ENCB, MODE_ACTIVE, BTN in bits 2, 1, 0, live (spec/10_state.md R48). -/
def pinsWord (l : Lines) : Word := (bit l.encb ++ bit l.mode ++ bit l.btn).setWidth 32

/-- PLAN's frequency operand, `uint(reg[SP_FREQ])` (spec/30_encoding.md R98, spec/41_synthesis.md R131). -/
def planFrequency (s : State) : Nat := s.spFreq.toNat

/-- PLAN's offset operand, `sint(reg[SP_OFFSET])` (spec/30_encoding.md R98, spec/41_synthesis.md R131). -/
def planOffset (s : State) : Int := s.spOffset.toInt

end Sys2Proof.Machine
end

