-- ==== Sys2Proof/Machine/Ops.lean ====
section
/-! DEFINITION. The named operations over the register window: the read of one register, the store of one register,
the one exception (IllegalCommand) and what ends it (RESET), and the assignment of one line. There is no memory
(spec/20_memory.md R70). -/

namespace Sys2Proof.Machine

/-- `raise IllegalCommand(v)`: the sticky bit is set; neither `v` nor a time is recorded, nothing is saved, nothing
else changes (spec/60_exceptions.md R211, R216). Log entry 1. -/
def raiseIllegalCommand (_v : Word) (s : State) : State := s.withIllCmd true

/-- The RESET of every element of spec/10_state.md R57, which is also the only thing that ends IllegalCommand: there is
no return from it (spec/60_exceptions.md R217). The lines stay (spec/70_reset_and_hazards.md R242), and so do the
model's own fields (log entries 2 and 3). -/
def resetBlock (s : State) : State :=
  ((State.resetWith s.lines).withSchedule s.schedule).withReadData s.readData

/-- The word RD returns for a register (spec/40_register_access.md R110). -/
def readReg (s : State) : Reg → Word
  | .cmd => 0
  | .coreStatus => (bit s.illCmd).setWidth 32
  | .cfg => (bit s.dirInvert).setWidth 32
  | .time => s.time
  | .spFreq => s.spFreq
  | .spOffset => s.spOffset
  | .spStatus => (lockCode s.lock).setWidth 32
  | .spFout => s.plan.fout
  | .spPll => s.plan.pll
  | .spDiv => s.plan.r.setWidth 32
  | .spPhase => phaseWord s.plan
  | .encSnap => snapWord s.snap
  | .evt => evtWord s.evt
  | .pins => pinsWord s.lines
  | .reserved38 => 0
  | .reserved3C => 0

/-- The store half of WR: CFG keeps bit 0, SP_FREQ and SP_OFFSET the whole word, every read-only register and reserved
offset nothing (spec/40_register_access.md R112, spec/20_memory.md R76). CMD stores nothing (spec/10_state.md R35); the
command it starts is `issueCommand`'s. -/
def storeReg (s : State) (v : Word) : Reg → State
  | .cfg => s.withDirInvert (v.getLsbD 0)
  | .spFreq => s.withSpFreq v
  | .spOffset => s.withSpOffset v
  | .cmd => s
  | .coreStatus => s
  | .time => s
  | .spStatus => s
  | .spFout => s
  | .spPll => s
  | .spDiv => s
  | .spPhase => s
  | .encSnap => s
  | .evt => s
  | .pins => s
  | .reserved38 => s
  | .reserved3C => s

/-- `pin.ENCB <- level` (spec/42_input_events.md R177). -/
def driveEncb (s : State) (level : Bool) : State := s.withLines { s.lines with encb := level }

/-- `pin.BTN <- level` (spec/42_input_events.md R178). -/
def driveBtn (s : State) (level : Bool) : State := s.withLines { s.lines with btn := level }

/-- `pin.MODE <- level` (spec/42_input_events.md R179). -/
def driveMode (s : State) (level : Bool) : State := s.withLines { s.lines with mode := level }

end Sys2Proof.Machine
end

