-- ==== Sys2Proof/Machine/InputEvents.lean ====
section
/-! DEFINITION. The Input Event Decoder: the timebase, the encoder detector and its mailbox, the button and mode-pin
detectors (spec/42_input_events.md), and the meanings of ADVANCE, EDGE_A, SET_ENCB, SET_BTN, SET_MODE, ENC_TAKE and
SAMPLE. -/

namespace Sys2Proof.Machine

/-- `reg[TIME] <- (reg[TIME] + d) mod 2^32` (spec/42_input_events.md R171). -/
def advanceTime (s : State) (d : Word) : State := s.withTime (s.time + d)

/-- What an accepted edge writes: the reference and the mailbox (spec/42_input_events.md R172, R174, R175). -/
def acceptEdge (s : State) : State :=
  (s.withEnc ⟨true, s.time⟩).withMbox ⟨true, edgeDirection s.lines.encb s.dirInvert⟩

/-- One sensitive edge: accepted, or without effect (spec/42_input_events.md R172, R173, R176). -/
def edgeStep (s : State) : State := if edgeAccepted s.enc s.time then acceptEdge s else s

/-- The atomic read-and-clear of the mailbox; the direction stays in it (spec/42_input_events.md R180). -/
def takeStep (s : State) : State := (s.withSnap s.mbox).withMbox { s.mbox with pending := false }

/-- The button detector's half of a SAMPLE: the click it raises and the level it remembers
(spec/42_input_events.md R187). -/
def sampleButton (s : State) : Bool × Bool := (buttonClick s.btnPrev s.lines.btn, s.lines.btn)

/-- The mode detector's reference after a SAMPLE: every release is recorded (spec/42_input_events.md R191). -/
def releaseReference (s : State) : Reference :=
  if modeRelease s.modePrev s.lines.mode then ⟨true, s.time⟩ else s.rel

/-- The events a SAMPLE raises (spec/42_input_events.md R187, R190, R192). -/
def sampleEvents (s : State) : Events where
  btnClick := (sampleButton s).1
  modeSingle := modeSingle (modeRelease s.modePrev s.lines.mode) (withinWindow s.rel s.time)
  modeDouble := modeDouble (modeRelease s.modePrev s.lines.mode) (withinWindow s.rel s.time)

/-- The SAMPLE operation: every value is read before any is written (spec/42_input_events.md R185, R186). -/
def sampleStep (s : State) : State :=
  (((s.withEvt (sampleEvents s)).withBtnPrev (sampleButton s).2).withModePrev s.lines.mode).withRel (releaseReference s)

/-- ADVANCE (spec/42_input_events.md R171). -/
def execAdvance (d : Word) (s : State) : Result := .next (advanceTime s d)

/-- EDGE_A (spec/42_input_events.md R172). -/
def execEdgeA (s : State) : Result := .next (edgeStep s)

/-- SET_ENCB (spec/42_input_events.md R177). -/
def execSetEncb (level : Bool) (s : State) : Result := .next (driveEncb s level)

/-- SET_BTN (spec/42_input_events.md R178). -/
def execSetBtn (level : Bool) (s : State) : Result := .next (driveBtn s level)

/-- SET_MODE (spec/42_input_events.md R179). -/
def execSetMode (level : Bool) (s : State) : Result := .next (driveMode s level)

/-- ENC_TAKE (spec/42_input_events.md R180). -/
def execEncTake (s : State) : Result := .next (takeStep s)

/-- SAMPLE (spec/42_input_events.md R185). -/
def execSample (s : State) : Result := .next (sampleStep s)

end Sys2Proof.Machine
end

