-- ==== Sys2Proof/Machine/Synthesis.lean ====
section
/-! DEFINITION. The Synthesis Planner: the algorithm of spec/41_synthesis.md R131 to R141 on exact integers
(spec/00_scope.md R9), what it writes (R142 to R146), and the meaning of PLAN (R130). -/

namespace Sys2Proof.Machine

/-- A successful plan on exact integers, before it is put into the registers (spec/41_synthesis.md R142). -/
structure ExactPlan where
  fout : Nat
  pll : Nat
  r : Nat
  steps : Nat
  capped : Bool
deriving DecidableEq, Repr

/-- `fout = max(0, f + o)`, the sum exact (spec/41_synthesis.md R132, spec/90_conflicts.md C1). -/
def effectiveTarget (f : Nat) (o : Int) : Nat := (max 0 ((f : Int) + o)).toNat

/-- `rmin = max(R_LOW, ceil_div(PLL_MIN, fout))`, no upper clamp (spec/41_synthesis.md R134, spec/90_conflicts.md
C5). -/
def dividerMin (fout : Nat) : Nat := max Config.rLow (ceilDiv Config.pllMin fout)

/-- `rmax = max(R_LOW, min(R_HIGH, PLL_MAX div fout))` (spec/41_synthesis.md R135). -/
def dividerMax (fout : Nat) : Nat := max Config.rLow (min Config.rHigh (Config.pllMax / fout))

/-- Path (a)'s candidate: the largest multiple of 4 that is at most `min(rmax, 127)` (spec/41_synthesis.md R137). -/
def exactCandidate (rmax : Nat) : Nat := Config.rMult * (min rmax Config.phaseMax / Config.rMult)

/-- Path (b)'s divider: the smallest multiple of 4 that is at least `rmin` (spec/41_synthesis.md R138). -/
def cappedCandidate (rmin : Nat) : Nat := Config.rMult * ceilDiv rmin Config.rMult

/-- The divider of path (a), else of path (b), else none (spec/41_synthesis.md R137, R138). -/
def chooseDivider (rmin rmax : Nat) : Option Nat :=
  if rmin ≤ exactCandidate rmax then some (exactCandidate rmax)
  else if rmax < cappedCandidate rmin then none
  else some (cappedCandidate rmin)

/-- The check of the product against the PLL's range, both bounds inclusive (spec/41_synthesis.md R140). -/
def pllInRange (pll : Nat) : Bool := decide (Config.pllMin ≤ pll) && decide (pll ≤ Config.pllMax)

/-- The applied phase-step count (spec/41_synthesis.md R141). -/
def phaseSteps (r : Nat) : Nat := if phaseCapped r then Config.phaseMax else r

/-- The planner as a function of the effective target; none is Unreachable (spec/41_synthesis.md R133 to R141). -/
def synthesize (fout : Nat) : Option ExactPlan :=
  if fout = 0 then none
  else
    match chooseDivider (dividerMin fout) (dividerMax fout) with
    | none => none
    | some r =>
      if pllInRange (fout * r) then
        some { fout := fout, pll := fout * r, r := r, steps := phaseSteps r, capped := phaseCapped r }
      else none

/-- The plan registers a successful plan writes: `fout[31:0]`, `pll[31:0]`, `R[9:0]`, `steps[6:0]`
(spec/41_synthesis.md R130, R142). -/
def planRegsOf (p : ExactPlan) : PlanRegs where
  fout := BitVec.ofNat 32 p.fout
  pll := BitVec.ofNat 32 p.pll
  r := BitVec.ofNat 10 p.r
  steps := BitVec.ofNat 7 p.steps
  capped := p.capped

/-- What PLAN writes: on success the plan registers and LOCK (spec/41_synthesis.md R142, R145), on Unreachable only
LOCK (R144, R146). -/
def recordPlan (s : State) : Option ExactPlan → State
  | some p => (s.withPlan (planRegsOf p)).withLock (lockOfPlan p.capped)
  | none => s.withLock .noLock

/-- The PLAN operation (spec/41_synthesis.md R130). -/
def planStep (s : State) : State :=
  recordPlan s (synthesize (effectiveTarget (planFrequency s) (planOffset s)))

/-- PLAN (spec/41_synthesis.md R130). -/
def execPlan (s : State) : Result := .next (planStep s)

end Sys2Proof.Machine
end

