-- ==== Sys2Proof/Machine/RegisterAccess.lean ====
section
/-! DEFINITION. Register access and command dispatch (spec/40_register_access.md): the meanings of RD, WR and NOP. -/

namespace Sys2Proof.Machine

/-- `Command(v)`: the operation a WR of `v` to CMD performs within its own step; every value outside the map raises
IllegalCommand (spec/40_register_access.md R113, R118). -/
def issueCommand (v : Word) (s : State) : State :=
  match v.toNat with
  | 0 => s
  | 1 => planStep s
  | 2 => sampleStep s
  | 3 => takeStep s
  | _ => raiseIllegalCommand v s

/-- The effect of WR on an admitted register: CMD starts its command, the others store (spec/40_register_access.md
R112). -/
def writeReg (s : State) (v : Word) (r : Reg) : State :=
  if r = .cmd then issueCommand v s else storeReg s v r

/-- RD: the register's word is returned to the host and nothing else changes (spec/40_register_access.md R110); an
offset that spec/20_memory.md R73 does not admit is refused. -/
def execRd (off : Offset) (s : State) : Result :=
  match regOfOffset off with
  | some r => .next (s.withReadData (some (readReg s r)))
  | none => .refused (.inadmissibleOffset off)

/-- WR (spec/40_register_access.md R112); an offset that spec/20_memory.md R73 does not admit is refused. -/
def execWr (off : Offset) (v : Word) (s : State) : Result :=
  match regOfOffset off with
  | some r => .next (writeReg s v r)
  | none => .refused (.inadmissibleOffset off)

/-- NOP: no effect (spec/40_register_access.md R117). -/
def execNop (s : State) : Result := .next s

end Sys2Proof.Machine
end

