-- ==== Sys2Proof/Machine/Reset.lean ====
section
/-! DEFINITION. The meaning of RESET (spec/70_reset_and_hazards.md R240, R242). -/

namespace Sys2Proof.Machine

/-- RESET (spec/70_reset_and_hazards.md R240). -/
def execReset (s : State) : Result := .next (resetBlock s)

end Sys2Proof.Machine
end

