-- ==== Sys2Proof/Machine/Dispatch.lean ====
section
/-! DEFINITION. One arm per instruction, each one direct call of its meaning. -/

namespace Sys2Proof.Machine

def exec (i : Instr) (s : State) : Host.Outcome State Fault Refusal :=
  match i with
  | .rd off => Sys2Proof.Machine.execRd off s
  | .wr off v => Sys2Proof.Machine.execWr off v s
  | .edgeA => Sys2Proof.Machine.execEdgeA s
  | .setEncb level => Sys2Proof.Machine.execSetEncb level s
  | .setBtn level => Sys2Proof.Machine.execSetBtn level s
  | .setMode level => Sys2Proof.Machine.execSetMode level s
  | .advance d => Sys2Proof.Machine.execAdvance d s
  | .reset => Sys2Proof.Machine.execReset s
  | .nop => Sys2Proof.Machine.execNop s
  | .plan => Sys2Proof.Machine.execPlan s
  | .sample => Sys2Proof.Machine.execSample s
  | .encTake => Sys2Proof.Machine.execEncTake s

end Sys2Proof.Machine
end

