-- ==== Sys2Proof/Machine/Step.lean ====
section
/-! DEFINITION. One step: the next record of the schedule is decoded and its instruction runs
(spec/10_state.md R33, spec/30_encoding.md R94, R95). Log entry 2. -/

namespace Sys2Proof.Machine

/-- The state an instruction runs in: its record is taken from the schedule, and nothing has been returned to the host
yet (log entries 2 and 3). -/
def State.afterFetch (s : State) (rest : List Record) : State := (s.withSchedule rest).withReadData none

/-- One atomic step of one agent (spec/00_scope.md R10, R11): an admitted record runs its instruction, any other is
refused, and an empty schedule is the end of the run as loaded. -/
def step (s : State) : Host.Outcome State Fault Refusal :=
  match s.schedule with
  | [] => .refused .scheduleEmpty
  | r :: rest =>
    match decodeRecord r with
    | .ok i => exec i (s.afterFetch rest)
    | .error e => .refused (.inadmissibleRecord e)

/-- The state whose next step runs the table word `w`: its record is put at the head of the schedule (log entries 2
and 8). -/
def State.withFetchWord (s : State) (nbits w : Nat) : State :=
  s.withSchedule (tableRecord nbits w :: s.schedule)

end Sys2Proof.Machine
end

