-- ==== Sys2Proof/Machine/Assembly.lean ====
section
/-! DEFINITION. The assembler of spec/30_encoding.md R100 and R101, over lines already split into their parts: the
syntaxes, the record each assembles to, and the pseudo-instructions' expansions. Log entry 12. -/

namespace Sys2Proof.Machine

/-- Where `rd` and `wr` point: `NAME` or `0xOO` (spec/30_encoding.md R100). -/
inductive AsmTarget where
  | named (name : String)
  | offset (off : Offset)
deriving DecidableEq, Repr

/-- A line of the assembler (spec/30_encoding.md R100). -/
inductive AsmStep where
  | rd (target : AsmTarget)
  | wr (target : AsmTarget) (value : Int)
  | edge
  | encb (level : Bool)
  | btn (level : Bool)
  | mode (level : Bool)
  | adv (d : Nat)
  | reset
deriving DecidableEq, Repr

/-- A pseudo-instruction (spec/30_encoding.md R101). -/
inductive AsmPseudo where
  | nop
  | plan
  | sample
  | take
  | planWith (f o : Int)
  | advms (m : Nat)
  | bclick
  | mclick
deriving DecidableEq, Repr

/-- The register a NAME stands for (spec/30_encoding.md R100, spec/10_state.md R34). -/
def regNamed (name : String) : Option Reg :=
  [("CMD", Reg.cmd), ("CORE_STATUS", Reg.coreStatus), ("CFG", Reg.cfg), ("TIME", Reg.time), ("SP_FREQ", Reg.spFreq),
   ("SP_OFFSET", Reg.spOffset), ("SP_STATUS", Reg.spStatus), ("SP_FOUT", Reg.spFout), ("SP_PLL", Reg.spPll),
   ("SP_DIV", Reg.spDiv), ("SP_PHASE", Reg.spPhase), ("ENC_SNAP", Reg.encSnap), ("EVT", Reg.evt),
   ("PINS", Reg.pins)].lookup name

/-- The offset a target names; none for a name that is not in R100's list. -/
def targetOffset : AsmTarget → Option Offset
  | .named name => (regNamed name).map regOffset
  | .offset off => some off

/-- The instruction a line stands for; `VALUE mod 2^32` is the data of `wr` (spec/30_encoding.md R100), and `adv` takes
a count in [0, 2^32 - 1] (R97). -/
def asmInstr : AsmStep → Option Instr
  | .rd target => (targetOffset target).map Instr.rd
  | .wr target value => (targetOffset target).map fun off => Instr.wr off (BitVec.ofInt 32 value)
  | .edge => some .edgeA
  | .encb level => some (.setEncb level)
  | .btn level => some (.setBtn level)
  | .mode level => some (.setMode level)
  | .adv d => if d < 2 ^ 32 then some (.advance (BitVec.ofNat 32 d)) else none
  | .reset => some .reset

/-- The record a line assembles to (spec/30_encoding.md R100). -/
def asmRecord (l : AsmStep) : Option Record := (asmInstr l).map fun i => carryingRecord (encode i)

/-- A register written by its name. -/
def wrNamed (name : String) (value : Int) : AsmStep := .wr (.named name) value

/-- The lines a pseudo-instruction expands to (spec/30_encoding.md R101). -/
def expandPseudo : AsmPseudo → List AsmStep
  | .nop => [wrNamed "CMD" 0]
  | .plan => [wrNamed "CMD" 1]
  | .sample => [wrNamed "CMD" 2]
  | .take => [wrNamed "CMD" 3]
  | .planWith f o => [wrNamed "SP_FREQ" f, wrNamed "SP_OFFSET" o, wrNamed "CMD" 1]
  | .advms m => [.adv (m * 1000)]
  | .bclick => [.btn true, wrNamed "CMD" 2, .btn false, wrNamed "CMD" 2]
  | .mclick => [.mode true, wrNamed "CMD" 2, .mode false, wrNamed "CMD" 2]

/-- The records of a list of lines; none if a line has no record. -/
def assemble (ls : List AsmStep) : Option (List Record) := ls.mapM asmRecord

end Sys2Proof.Machine
end

