-- ==== Sys2Proof/Machine/Surroundings.lean ====
section
/-! DEFINITION. What the spec says of the block's surroundings, as data the block never acts on: bus addresses and byte
lanes, raw transitions of encoder line A, and the host's duties (spec/70_reset_and_hazards.md R243 to R247). The block
enforces none of it. Log entries 5 and 11. -/

namespace Sys2Proof.Machine

/-- The bus address of a register: its byte offset from BLOCK_BASE (spec/20_memory.md R70). -/
def busAddress (r : Reg) : Nat := Config.blockBase + (regOffset r).toNat

/-- Lane `k` of a word carries bits [8k+7:8k]: little-endian lane numbering (spec/20_memory.md R72). -/
def byteLane (w : Word) (k : Nat) : BitVec 8 := w.extractLsb' (8 * k) 8

/-- A physical transition of encoder line A. -/
inductive LineTransition where
  | rising
  | falling
deriving DecidableEq, Repr

/-- The transitions ENC_EDGE_SENSE names (spec/92_eei_decisions.md D11). -/
def isSensitive : Config.EdgeSense → LineTransition → Bool
  | .rising, .rising => true
  | .rising, .falling => false
  | .falling, .rising => false
  | .falling, .falling => true
  | .both, .rising => true
  | .both, .falling => true

/-- The steps of the ENC agent that a transition of line A produces (spec/42_input_events.md R172): one EDGE_A if the
transition is sensitive. -/
def transitionSteps (t : LineTransition) : List Instr :=
  if isSensitive Config.encEdgeSense t then [.edgeA] else []

/-- The two output channels (spec/00_scope.md R5, spec/70_reset_and_hazards.md R245). -/
inductive Channel where
  | reference
  | quadrature
deriving DecidableEq, Repr

/-- The synthesizer facade's calls (spec/70_reset_and_hazards.md R245). -/
inductive FacadeCall where
  | setPllSource (c : Channel) (pll : Nat)
  | setIntegerMode (c : Channel) (on : Bool)
  | setFrequency (c : Channel) (fout pllFreq : Word)
  | setPhase (c : Channel) (steps : BitVec 7)
  | resetPll (pll : Nat)
  | setOutputEnabled (c : Channel) (on : Bool)
deriving DecidableEq, Repr

/-- The calls that apply the plan in the registers, in the source's order (spec/70_reset_and_hazards.md R245); which
PLL `p` is used is not in the source. -/
def applyPlanCalls (p : Nat) (s : State) : List FacadeCall :=
  [.setPllSource .reference p, .setPllSource .quadrature p,
   .setIntegerMode .reference true, .setIntegerMode .quadrature true,
   .setFrequency .reference s.plan.fout s.plan.pll, .setFrequency .quadrature s.plan.fout s.plan.pll,
   .setPhase .reference 0, .setPhase .quadrature s.plan.steps,
   .resetPll p,
   .setOutputEnabled .reference true, .setOutputEnabled .quadrature true]

/-- What the host does with the status after a PLAN: apply the plan, or on NO_LOCK leave the synthesizer untouched
(spec/70_reset_and_hazards.md R245, R246). Before any PLAN there is nothing to apply. -/
def hostCalls (p : Nat) (s : State) : List FacadeCall :=
  match s.lock with
  | .none => []
  | .locked => applyPlanCalls p s
  | .phaseLimited => applyPlanCalls p s
  | .noLock => []

/-- The writes the host makes after RESET, in order (spec/70_reset_and_hazards.md R243). -/
def bootSteps (dirInvert : Word) (freq offset : Word) : List Instr :=
  [.wr (regOffset .cfg) dirInvert, .wr (regOffset .spFreq) freq, .wr (regOffset .spOffset) offset]

/-- The first part of an iteration of the host's loop: `sample`, `rd EVT`, `rd PINS`, `take`, `rd ENC_SNAP`
(spec/70_reset_and_hazards.md R247). -/
def pollSteps : List Instr :=
  [.wr (regOffset .cmd) 2, .rd (regOffset .evt), .rd (regOffset .pins), .wr (regOffset .cmd) 3,
   .rd (regOffset .encSnap)]

/-- The second part, when a parameter changed: write the inputs, `plan`, read the plan registers
(spec/70_reset_and_hazards.md R247). -/
def resynthesisSteps (freq offset : Word) : List Instr :=
  [.wr (regOffset .spFreq) freq, .wr (regOffset .spOffset) offset, .wr (regOffset .cmd) 1,
   .rd (regOffset .spStatus), .rd (regOffset .spFout), .rd (regOffset .spPll), .rd (regOffset .spDiv),
   .rd (regOffset .spPhase)]

end Sys2Proof.Machine
end

