-- ==== Sys2Proof/Safety.lean ====
section
/-! DEFINITION. What the statements speak of: a faulted state (spec/60_exceptions.md R211), the states a run may start
in (spec/70_reset_and_hazards.md R241, R242), a run of instructions, and the invariant of the block. -/

namespace Sys2Proof

/-- The instruction is a PLAN: the command itself, or the WR to CMD that issues it (spec/30_encoding.md R92,
spec/40_register_access.md R113). -/
def Instr.runsPlan (i : Instr) : Bool := i = .plan || i = .wr 0x00 1

/-- The instruction is a SAMPLE, the command itself or the WR that issues it. -/
def Instr.runsSample (i : Instr) : Bool := i = .sample || i = .wr 0x00 2

/-- The instruction is an ENC_TAKE, the command itself or the WR that issues it. -/
def Instr.runsEncTake (i : Instr) : Bool := i = .encTake || i = .wr 0x00 3

/-- The instruction writes to CMD a word outside the command map (spec/40_register_access.md R118). -/
def Instr.isIllegalCommand : Instr → Bool
  | .rd _ => false
  | .wr off v => decide (off = 0x00) && decide (3 < v.toNat)
  | .edgeA => false
  | .setEncb _ => false
  | .setBtn _ => false
  | .setMode _ => false
  | .advance _ => false
  | .reset => false
  | .nop => false
  | .plan => false
  | .sample => false
  | .encTake => false

end Sys2Proof

namespace Sys2Proof.Machine

/-- A faulted state: ILL_CMD = 1 (spec/60_exceptions.md R211). -/
def State.faulted (s : State) : Bool := s.illCmd

/-- A state a run may start in: right after RESET, the lines at any levels (spec/70_reset_and_hazards.md R241, R242),
a run of any steps loaded. -/
def State.launch (lines : Lines) (run : List Record) : State := (State.resetWith lines).withSchedule run

/-- Instructions one after another, stopping at the first refusal. -/
def execAll : List Instr → State → Result
  | [], s => .next s
  | i :: rest, s =>
    match exec i s with
    | .next t => execAll rest t
    | .fault f => .fault f
    | .refused r => .refused r

/-- The whole schedule, `fuel` steps at most. -/
def runSchedule : Nat → State → Result
  | 0, s => .next s
  | fuel + 1, s =>
    match step s with
    | .next t => runSchedule fuel t
    | .fault f => .fault f
    | .refused r => .refused r

/-- The state an instruction leads to, if it leads to one. -/
def nextState (i : Instr) (s : State) : State :=
  match exec i s with
  | .next t => t
  | .fault _ => s
  | .refused _ => s

/-- The directions of the edges that a run of instructions accepts, first to last (spec/42_input_events.md R173,
R174). -/
def acceptedDirections : List Instr → State → List Bool
  | [], _ => []
  | i :: rest, s =>
    (if i = .edgeA ∧ edgeAccepted s.enc s.time then [edgeDirection s.lines.encb s.dirInvert] else [])
      ++ acceptedDirections rest (nextState i s)

/-- The plan registers hold a plan of the planner's: the product exact and in the PLL's range, the divider a multiple
of 4 in [4, 900], the phase as spec/41_synthesis.md R141 gives it (R150 to R152). -/
def PlanRegs.holdsPlan (p : PlanRegs) : Prop :=
  p.pll.toNat = p.fout.toNat * p.r.toNat ∧
  Config.pllMin ≤ p.pll.toNat ∧ p.pll.toNat ≤ Config.pllMax ∧
  4 ≤ p.r.toNat ∧ p.r.toNat ≤ 900 ∧ p.r.toNat % 4 = 0 ∧
  p.capped = decide (127 < p.r.toNat) ∧
  p.steps.toNat = min p.r.toNat 127

/-- The bands of path (a): divider, lowest and highest effective target (spec/41_synthesis.md R156's table). -/
def exactBands : List (Nat × Nat × Nat) :=
  [(124, 4838710, 7258064),
   (120, 7258065, 7500000),
   (116, 7500001, 7758620),
   (112, 7758621, 8035714),
   (108, 8035715, 8333333),
   (104, 8333334, 8653846),
   (100, 8653847, 9000000),
   (96, 9000001, 9375000),
   (92, 9375001, 9782608),
   (88, 9782609, 10227272),
   (84, 10227273, 10714285),
   (80, 10714286, 11250000),
   (76, 11250001, 11842105),
   (72, 11842106, 12500000),
   (68, 12500001, 13235294),
   (64, 13235295, 14062500),
   (60, 14062501, 15000000),
   (56, 15000001, 16071428),
   (52, 16071429, 17307692),
   (48, 17307693, 18750000),
   (44, 18750001, 20454545),
   (40, 20454546, 22500000),
   (36, 22500001, 25000000),
   (32, 25000001, 28125000),
   (28, 28125001, 32142857),
   (24, 32142858, 37500000),
   (20, 37500001, 45000000),
   (16, 45000001, 56250000),
   (12, 56250001, 75000000),
   (8, 75000001, 112500000),
   (4, 150000000, 225000000)]

/-- An effective target that spec/41_synthesis.md R154 calls reachable, in Hz. -/
def reachableTarget (fout : Int) : Bool :=
  decide (666667 ≤ fout ∧ fout ≤ 112500000) || decide (150000000 ≤ fout ∧ fout ≤ 225000000)

/-- The elapsed time between two values of TIME, `(now - earlier) mod 2^32`, in natural numbers
(spec/10_state.md R38). -/
def elapsedUs (now earlier : Word) : Nat := (now.toNat + 2 ^ 32 - earlier.toNat) % 2 ^ 32

/-- The two states hold the same planner: inputs, status and plan registers (spec/10_state.md R39 to R45). -/
def State.samePlanner (s t : State) : Prop :=
  s.spFreq = t.spFreq ∧ s.spOffset = t.spOffset ∧ s.lock = t.lock ∧ s.plan = t.plan

/-- The two states hold the same input event decoder: timebase, direction sense, lines, mailbox, snapshot, events and
internal state (spec/10_state.md R30, R37, R38, R46 to R54). -/
def State.sameDecoder (s t : State) : Prop :=
  s.time = t.time ∧ s.dirInvert = t.dirInvert ∧ s.lines = t.lines ∧ s.mbox = t.mbox ∧ s.snap = t.snap ∧
  s.evt = t.evt ∧ s.enc = t.enc ∧ s.btnPrev = t.btnPrev ∧ s.modePrev = t.modePrev ∧ s.rel = t.rel

/-- The block's invariant: what spec/10_state.md R41 to R54 say of the registers between any two steps. -/
structure State.Inv (s : State) : Prop where
  /-- before any PLAN the plan registers hold their reset values (R41 to R45) -/
  unplanned : s.lock = .none → s.plan = .reset
  /-- the plan registers hold their reset values or a plan (R42 to R45) -/
  plan : s.plan = .reset ∨ s.plan.holdsPlan
  /-- LOCKED says the plan held is exact (R41) -/
  locked : s.lock = .locked → s.plan.holdsPlan ∧ s.plan.capped = false
  /-- PHASE_LIMITED says the plan held is phase-capped (R41) -/
  limited : s.lock = .phaseLimited → s.plan.holdsPlan ∧ s.plan.capped = true
  /-- MODE_SINGLE and MODE_DOUBLE are never both 1 (R47) -/
  oneModeEvent : (s.evt.modeSingle && s.evt.modeDouble) = false
  /-- a click is raised only by a SAMPLE that sees the button inactive (R52) -/
  clickReleased : s.evt.btnClick = true → s.btnPrev = false
  /-- a mode event is raised only by a SAMPLE that sees the mode pin inactive, and records a release (R53, R54) -/
  modeReleased : (s.evt.modeSingle || s.evt.modeDouble) = true → s.modePrev = false ∧ s.rel.valid = true
  /-- a step is pending, in the mailbox or in its snapshot, only after an accepted edge (R46, R50, R51) -/
  stepsFromEdges : (s.mbox.pending || s.mbox.dir || s.snap.pending || s.snap.dir) = true → s.enc.valid = true
  /-- the encoder's reference is its reset value until an edge is accepted (R51) -/
  encUnset : s.enc.valid = false → s.enc.last = 0
  /-- the release's reference is its reset value until a release is seen (R54) -/
  relUnset : s.rel.valid = false → s.rel.last = 0

end Sys2Proof.Machine
end

