-- ==== Sys2Proof/Certificates/Slice0/Obligations.lean ====
section
/-! DEFINITION. The statements for the provers. Values are written with the numbers of spec/, not with the model's
constants or helpers, wherever a statement gives a result. -/

open Sys2Proof Sys2Proof.Machine

/-! ## The step, the decoder and the encoder -/

/-- Spec/30_encoding.md R94, R96 and the model's schedule (log entries 2 and 3): when the next record decodes to an
instruction, the step takes the record off the schedule, clears what was returned, and runs the instruction. -/
def Obligations.StepRunsDecodedInstruction : Prop :=
  ∀ (s : State) (r : Record) (rest : List Record) (i : Instr),
    s.schedule = r :: rest → decodeRecord r = .ok i →
      step s = exec i { s with schedule := rest, readData := none }

/-- Spec/30_encoding.md R92 and spec/40_register_access.md R113: the record `wr CMD, w` of a legal command word runs
that command. -/
def Obligations.StepRunsIssuedCommand : Prop :=
  ∀ (s : State) (w : Word) (rest : List Record) (c : Instr),
    s.schedule = carryingRecord (.command w) :: rest → decodeCommand w = .ok c →
      step s = exec c { s with schedule := rest, readData := none }

/-- The host's interface (log entry 8): after a table word is put where the step fetches, the very next step runs the
instruction the decoder reads from it. -/
def Obligations.FetchWordRunsNext : Prop :=
  ∀ (s : State) (nbits w : Nat) (i : Instr),
    decodeTableWord nbits w = some i → step (s.withFetchWord nbits w) = exec i { s with readData := none }

/-- Spec/30_encoding.md R95: a record that matches exactly one row of R96 steps; every other is refused; and the
refused records are exactly the listed ones. KIND, RSV, OFFSET and DATA are R94's bits, as numbers. -/
def Obligations.AdmittedRecordsStepOthersRefused : Prop :=
  ∀ (s : State) (r : Record) (rest : List Record), s.schedule = r :: rest →
    ((matchingRows r).length = 1 → ∃ t, step s = .next t) ∧
    ((matchingRows r).length ≠ 1 → ∃ e, step s = .refused (.inadmissibleRecord e)) ∧
    ((∃ e, step s = .refused (.inadmissibleRecord e)) ↔
      let kind := r.toNat / 2 ^ 44
      let rsv := r.toNat / 2 ^ 40 % 16
      let off := r.toNat / 2 ^ 32 % 256
      let data := r.toNat % 2 ^ 32
      8 ≤ kind ∨ rsv ≠ 0 ∨
      ((kind = 0 ∨ kind = 1) ∧ (off % 4 ≠ 0 ∨ 0x40 ≤ off)) ∨
      (kind = 0 ∧ data ≠ 0) ∨
      ((kind = 2 ∨ kind = 7) ∧ (off ≠ 0 ∨ data ≠ 0)) ∨
      ((kind = 3 ∨ kind = 4 ∨ kind = 5) ∧ (off ≠ 0 ∨ data / 2 ≠ 0)) ∨
      (kind = 6 ∧ off ≠ 0))

/-- Decode and encode agree (spec/30_encoding.md R92, R94, R96, R97): every well-formed instruction, at every value of
its operands, is read back from its encoding. -/
def Obligations.DecodeOfEncodeIsInstruction : Prop :=
  ∀ i : Instr, i.wellFormed = true → decode (encode i) = .ok i

/-- Each encoding has one meaning (spec/30_encoding.md R95): an encoding that decodes is the encoding of what it decodes
to, and that is well-formed. -/
def Obligations.EncodeOfDecodeIsEncoding : Prop :=
  ∀ (e : Encoding) (i : Instr), decode e = .ok i → encode i = e ∧ i.wellFormed = true

/-- The worked encodings after spec/30_encoding.md R101. -/
def Obligations.WorkedEncodingsDecode : Prop :=
  decodeRecord 0x100000000001 = .ok (.wr 0x00 1) ∧
  decodeRecord 0x101001A2EE18 = .ok (.wr 0x10 27455000) ∧
  decodeRecord 0x1014FFE17B80 = .ok (.wr 0x14 (BitVec.ofInt 32 (-2000000))) ∧
  decodeRecord 0x001800000000 = .ok (.rd 0x18) ∧
  decodeRecord 0x200000000000 = .ok .edgeA ∧
  decodeRecord 0x500000000001 = .ok (.setMode true) ∧
  decodeRecord 0x6000000001F4 = .ok (.advance 500) ∧
  decodeRecord 0x700000000000 = .ok .reset

/-- Spec/20_memory.md R82: every step of every agent completes. -/
def Obligations.WellFormedInstructionsComplete : Prop :=
  ∀ (i : Instr) (s : State), i.wellFormed = true → ∃ t, exec i s = .next t

/-! ## RD and WR -/

/-- Spec/40_register_access.md R110: RD's record (spec/30_encoding.md R96), the value it returns at each of the sixteen
offsets, and that nothing else changes. -/
def Obligations.RdReturnsRegisterFields : Prop :=
  ∀ s : State,
    let returns := fun (off : Offset) (w : Word) => exec (.rd off) s = .next { s with readData := some w }
    returns 0x00 0 ∧
    returns 0x04 (if s.illCmd then 1 else 0) ∧
    returns 0x08 (if s.dirInvert then 1 else 0) ∧
    returns 0x0C s.time ∧
    returns 0x10 s.spFreq ∧
    returns 0x14 s.spOffset ∧
    returns 0x18 (match s.lock with | .none => 0 | .locked => 1 | .phaseLimited => 2 | .noLock => 3) ∧
    returns 0x1C s.plan.fout ∧
    returns 0x20 s.plan.pll ∧
    returns 0x24 (BitVec.ofNat 32 s.plan.r.toNat) ∧
    returns 0x28 (BitVec.ofNat 32 (s.plan.steps.toNat + (if s.plan.capped then 2 ^ 8 else 0))) ∧
    returns 0x2C (BitVec.ofNat 32 ((if s.snap.pending then 1 else 0) + (if s.snap.dir then 2 else 0))) ∧
    returns 0x30 (BitVec.ofNat 32 ((if s.evt.btnClick then 1 else 0) + (if s.evt.modeSingle then 2 else 0)
      + (if s.evt.modeDouble then 4 else 0))) ∧
    returns 0x34 (BitVec.ofNat 32 ((if s.lines.btn then 1 else 0) + (if s.lines.mode then 2 else 0)
      + (if s.lines.encb then 4 else 0))) ∧
    returns 0x38 0 ∧
    returns 0x3C 0 ∧
    ∀ off : Offset, off.toNat % 4 = 0 → off.toNat < 0x40 →
      decodeRecord (0x0#4 ++ 0x0#4 ++ off ++ 0#32) = .ok (.rd off)

/-- Spec/20_memory.md R75: RD changes nothing but what it returns, and an RD of the same offset right after it returns
the same value. -/
def Obligations.ReadsHaveNoSideEffect : Prop :=
  ∀ (s t : State) (off : Offset), exec (.rd off) s = .next t →
    { t with readData := s.readData } = s ∧ exec (.rd off) t = .next t

/-- Spec/20_memory.md R73: an RD or WR whose offset is no multiple of 4 or not below 0x40 has no meaning and leads to no
state; every other offset is admitted. The refusal's name is the model's (log entry 10). -/
def Obligations.InadmissibleOffsetsAreRefused : Prop :=
  ∀ (s : State) (off : Offset) (v : Word),
    (off.toNat % 4 ≠ 0 ∨ 0x40 ≤ off.toNat →
      exec (.rd off) s = .refused (.inadmissibleOffset off) ∧
      exec (.wr off v) s = .refused (.inadmissibleOffset off)) ∧
    (off.toNat % 4 = 0 ∧ off.toNat < 0x40 →
      (∃ t, exec (.rd off) s = .next t) ∧ ∃ t, exec (.wr off v) s = .next t)

/-- Spec/40_register_access.md R112 and R113: WR's record (spec/30_encoding.md R96) and what WR does at each offset; at
CMD it is the command's own effect, and every other value raises IllegalCommand, which sets ILL_CMD. -/
def Obligations.WrStoresOrStartsCommand : Prop :=
  ∀ (s : State) (v : Word),
    exec (.wr 0x00 0) s = exec .nop s ∧
    exec (.wr 0x00 1) s = exec .plan s ∧
    exec (.wr 0x00 2) s = exec .sample s ∧
    exec (.wr 0x00 3) s = exec .encTake s ∧
    (v ≠ 0 ∧ v ≠ 1 ∧ v ≠ 2 ∧ v ≠ 3 → exec (.wr 0x00 v) s = .next { s with illCmd := true }) ∧
    exec (.wr 0x08 v) s = .next { s with dirInvert := v.getLsbD 0 } ∧
    exec (.wr 0x10 v) s = .next { s with spFreq := v } ∧
    exec (.wr 0x14 v) s = .next { s with spOffset := v } ∧
    (∀ off ∈ ([0x04, 0x0C, 0x18, 0x1C, 0x20, 0x24, 0x28, 0x2C, 0x30, 0x34, 0x38, 0x3C] : List Offset),
      exec (.wr off v) s = .next s) ∧
    ∀ off : Offset, off.toNat % 4 = 0 → off.toNat < 0x40 →
      decodeRecord (0x1#4 ++ 0x0#4 ++ off ++ v) = .ok (.wr off v)

/-- Spec/40_register_access.md R118: a command word outside the map sets ILL_CMD and changes nothing else; a second one
leaves the bit at 1; the value is not recorded. -/
def Obligations.IllegalCommandOnlySetsStickyBit : Prop :=
  ∀ (s : State) (v w : Word), 4 ≤ v.toNat → 4 ≤ w.toNat →
    ∃ t, exec (.wr 0x00 v) s = .next t ∧ t = { s with illCmd := true } ∧
      exec (.wr 0x00 w) s = .next t ∧ exec (.wr 0x00 w) t = .next t

/-- Spec/20_memory.md R76 and spec/10_state.md section 3: reserved bits read 0, and two writes that agree on a
register's implemented bits have one effect. The mask of offset 0x28 leaves out bit 7. -/
def Obligations.ReservedBitsReadZeroAndIgnoreWrites : Prop :=
  ∀ (s : State) (row : Offset × Word × Word),
    row ∈ ([(0x04, 0x1, 0), (0x08, 0x1, 0x1), (0x0C, 0xFFFFFFFF, 0), (0x10, 0xFFFFFFFF, 0xFFFFFFFF),
            (0x14, 0xFFFFFFFF, 0xFFFFFFFF), (0x18, 0x3, 0), (0x1C, 0xFFFFFFFF, 0), (0x20, 0xFFFFFFFF, 0),
            (0x24, 0x3FF, 0), (0x28, 0x17F, 0), (0x2C, 0x3, 0), (0x30, 0x7, 0), (0x34, 0x7, 0),
            (0x38, 0, 0), (0x3C, 0, 0)] : List (Offset × Word × Word)) →
    (∃ w, exec (.rd row.1) s = .next { s with readData := some w } ∧ w &&& ~~~row.2.1 = 0) ∧
    ∀ v v' : Word, v &&& row.2.2 = v' &&& row.2.2 → exec (.wr row.1 v) s = exec (.wr row.1 v') s

/-- Spec/20_memory.md R72 and spec/40_register_access.md R112: what WR stores is what RD reads back, bit for bit; CFG
keeps bit 0. -/
def Obligations.WrittenInputsReadBack : Prop :=
  ∀ (s t : State) (v : Word),
    (exec (.wr 0x10 v) s = .next t → exec (.rd 0x10) t = .next { t with readData := some v }) ∧
    (exec (.wr 0x14 v) s = .next t → exec (.rd 0x14) t = .next { t with readData := some v }) ∧
    (exec (.wr 0x08 v) s = .next t → exec (.rd 0x08) t = .next { t with readData := some (v &&& 1) })

/-- Spec/40_register_access.md R117: NOP, the command word 0 and the record `wr CMD, 0`, changes nothing at all. -/
def Obligations.NopChangesNothing : Prop :=
  decodeCommand 0 = .ok .nop ∧ decodeRecord 0x100000000000 = .ok (.wr 0x00 0) ∧
  ∀ s : State, exec .nop s = .next s ∧ exec (.wr 0x00 0) s = .next s

/-! ## IllegalCommand -/

/-- Spec/60_exceptions.md R211, R217: after a step, ILL_CMD is 1 exactly when the step is no RESET and the bit was 1 or
the step is an illegal command. -/
def Obligations.IllCmdIsSetByIllegalCommandAndClearedByReset : Prop :=
  ∀ (i : Instr) (s t : State), exec i s = .next t →
    (t.faulted = true ↔ i ≠ .reset ∧ (s.faulted = true ∨ i.isIllegalCommand = true))

/-- Spec/60_exceptions.md R211: the fault does not stop the block. Whatever ILL_CMD holds, every step but the read of
CORE_STATUS does the same to everything else. -/
def Obligations.FaultStopsNoStep : Prop :=
  ∀ (i : Instr) (s t : State) (b : Bool), i ≠ .rd 0x04 → exec i s = .next t →
    ∃ c, exec i { s with illCmd := b } = .next { t with illCmd := c }

/-! ## PLAN -/

/-- Spec/41_synthesis.md R133: every input pair with f + o ≤ 0 is Unreachable, and only LOCK is written. -/
def Obligations.PlanOnNonpositiveSumIsUnreachable : Prop :=
  ∀ s : State, (s.spFreq.toNat : Int) + s.spOffset.toInt ≤ 0 → exec .plan s = .next { s with lock := .noLock }

/-- Spec/41_synthesis.md R130, R142, R145, with the divider as R156 gives it: a PLAN whose target is reachable (R154)
writes the five plan fields and LOCK, and nothing else. -/
def Obligations.PlanOnReachableTargetWritesPlan : Prop :=
  ∀ (s : State) (fout : Nat), (s.spFreq.toNat : Int) + s.spOffset.toInt = fout → reachableTarget fout = true →
    let r := if 4838710 ≤ fout then min 124 (4 * (900000000 / fout / 4))
      else 4 * ((((600000000 + fout - 1) / fout) + 3) / 4)
    exec .plan s = .next { s with
      plan := { fout := BitVec.ofNat 32 fout, pll := BitVec.ofNat 32 (fout * r), r := BitVec.ofNat 10 r,
                steps := BitVec.ofNat 7 (if r ≤ 127 then r else 127), capped := decide (127 < r) },
      lock := if r ≤ 127 then .locked else .phaseLimited }

/-- Spec/41_synthesis.md R144, R146: a PLAN whose target is not reachable (R154) writes LOCK, and nothing else. -/
def Obligations.PlanOnUnreachableTargetHoldsPlan : Prop :=
  ∀ s : State, reachableTarget ((s.spFreq.toNat : Int) + s.spOffset.toInt) = false →
    exec .plan s = .next { s with lock := .noLock }

/-- Spec/41_synthesis.md R154, over every effective target: the planner succeeds exactly on the two intervals, and
outside them it fails for the cause the rule gives. -/
def Obligations.PlannerSucceedsExactlyOnReachableSet : Prop :=
  ∀ fout : Nat,
    ((synthesize fout).isSome = true ↔
      (666667 ≤ fout ∧ fout ≤ 112500000) ∨ (150000000 ≤ fout ∧ fout ≤ 225000000)) ∧
    (0 < fout ∧ fout < 666667 → 900 < dividerMin fout ∧ chooseDivider (dividerMin fout) (dividerMax fout) = none) ∧
    (112500001 ≤ fout ∧ fout ≤ 149999999 →
      (∀ m, dividerMin fout ≤ m → m ≤ dividerMax fout → m % 4 ≠ 0) ∧
      chooseDivider (dividerMin fout) (dividerMax fout) = none) ∧
    (225000000 < fout →
      chooseDivider (dividerMin fout) (dividerMax fout) = some 4 ∧ 900000000 < fout * 4)

/-- Spec/41_synthesis.md R150 and R151: after every successful PLAN the product is exact and in the PLL's range, and the
phase follows from the divider. -/
def Obligations.SuccessfulPlanIsInRange : Prop :=
  ∀ s t : State, exec .plan s = .next t → t.lock ≠ .noLock →
    600000000 ≤ t.plan.pll.toNat ∧ t.plan.pll.toNat ≤ 900000000 ∧
    t.plan.pll.toNat = t.plan.fout.toNat * t.plan.r.toNat ∧
    (t.plan.r.toNat ≤ 127 → t.plan.capped = false ∧ t.plan.steps.toNat = t.plan.r.toNat) ∧
    (127 < t.plan.r.toNat → t.plan.capped = true ∧ t.plan.steps.toNat = 127)

/-- Spec/41_synthesis.md R152 and R153: the divider is a multiple of 4; path (a) gives [4, 124] and LOCKED, path (b)
[128, 900] and PHASE_LIMITED. -/
def Obligations.PathDecidesDividerAndPhase : Prop :=
  ∀ s t : State, exec .plan s = .next t → t.lock ≠ .noLock →
    let fout := ((s.spFreq.toNat : Int) + s.spOffset.toInt).toNat
    t.plan.r.toNat % 4 = 0 ∧
    (dividerMin fout ≤ exactCandidate (dividerMax fout) →
      4 ≤ t.plan.r.toNat ∧ t.plan.r.toNat ≤ 124 ∧ t.plan.capped = false ∧ t.lock = .locked) ∧
    (exactCandidate (dividerMax fout) < dividerMin fout →
      128 ≤ t.plan.r.toNat ∧ t.plan.r.toNat ≤ dividerMax fout ∧ dividerMax fout ≤ 900 ∧
      t.plan.capped = true ∧ t.lock = .phaseLimited)

/-- Spec/41_synthesis.md R134 and R135: Rmin is the least divider of at least 4 that reaches PLL_MIN, with no upper
clamp; Rmax the greatest of at most 900 that does not pass PLL_MAX, raised to 4 only above 225 MHz. -/
def Obligations.DividerBoundsAreTight : Prop :=
  ∀ fout : Nat, 0 < fout →
    IsLeast {n : Nat | 4 ≤ n ∧ 600000000 ≤ n * fout} (dividerMin fout) ∧
    (fout ≤ 225000000 → IsGreatest {n : Nat | n ≤ 900 ∧ n * fout ≤ 900000000} (dividerMax fout)) ∧
    (225000000 < fout → dividerMax fout = 4)

/-- Spec/41_synthesis.md R137 and R138: the divider is the largest multiple of 4 that is at most min(Rmax, 127) if that
is at least Rmin; else the smallest multiple of 4 that is at least Rmin, if that is at most Rmax; else there is none. -/
def Obligations.DividerIsLargestExactElseSmallestCapped : Prop :=
  ∀ rmin rmax a b : Nat, 4 ≤ rmin → 4 ≤ rmax →
    IsGreatest {m : Nat | 4 ∣ m ∧ m ≤ min rmax 127} a → IsLeast {m : Nat | 4 ∣ m ∧ rmin ≤ m} b →
      4 ≤ a ∧ a ≤ 124 ∧
      chooseDivider rmin rmax = if rmin ≤ a then some a else if b ≤ rmax then some b else none

/-- Spec/41_synthesis.md R155 (spec/90_conflicts.md C2): the product check is live, and fails exactly above
225 000 000 Hz. -/
def Obligations.ProductCheckFailsExactlyAbove225MHz : Prop :=
  ∀ fout : Nat, 0 < fout →
    ((∃ r, chooseDivider (dividerMin fout) (dividerMax fout) = some r ∧
        (fout * r < 600000000 ∨ 900000000 < fout * r)) ↔ 225000000 < fout)

/-- Spec/92_eei_decisions.md D9 (spec/41_synthesis.md R135): with Rmax not raised to 4, the planner gives the same result
for every effective target. -/
def Obligations.OtherRmaxReadingGivesSamePlan : Prop :=
  ∀ fout : Nat, 0 < fout →
    (synthesize fout).map (fun p => (p.pll, p.r)) =
      match chooseDivider (dividerMin fout) (min 900 (900000000 / fout)) with
      | none => none
      | some r => if 600000000 ≤ fout * r ∧ fout * r ≤ 900000000 then some (fout * r, r) else none

/-- Spec/41_synthesis.md R156: the table of path (a)'s bands, and path (b)'s band of each divider. -/
def Obligations.DividerBandsHold : Prop :=
  (∀ (row : Nat × Nat × Nat) (fout : Nat), row ∈ exactBands → row.2.1 ≤ fout → fout ≤ row.2.2 →
    (synthesize fout).map (fun p => (p.r, p.capped)) = some (row.1, false)) ∧
  (∀ r fout : Nat, 128 ≤ r → r ≤ 900 → r % 4 = 0 →
    (600000000 + r - 1) / r ≤ fout → fout + 1 ≤ (600000000 + (r - 4) - 1) / (r - 4) →
    (synthesize fout).map (fun p => (p.r, p.capped)) = some (r, true))

/-- Spec/41_synthesis.md R147: two PLANs with the same inputs, and no WR to SP_FREQ or SP_OFFSET and no RESET between
them, leave the same status and plan registers, whatever runs between. -/
def Obligations.PlansWithSameInputsAgree : Prop :=
  ∀ (s t u v : State) (between : List Instr),
    (∀ i ∈ between, i ≠ .reset ∧ ∀ x, i ≠ .wr 0x10 x ∧ i ≠ .wr 0x14 x) →
    exec .plan s = .next t → execAll between t = .next u → exec .plan u = .next v →
      v.plan = t.plan ∧ v.lock = t.lock

/-- Spec/41_synthesis.md R147: what PLAN writes depends on SP_FREQ and SP_OFFSET alone. -/
def Obligations.PlanDependsOnInputsAlone : Prop :=
  ∀ s s' t t' : State, s.spFreq = s'.spFreq → s.spOffset = s'.spOffset →
    exec .plan s = .next t → exec .plan s' = .next t' →
      t.lock = t'.lock ∧ (t.lock ≠ .noLock → t.plan = t'.plan) ∧
      (t.lock = .noLock → t.plan = s.plan ∧ t'.plan = s'.plan)

/-! ## The timebase and the encoder -/

/-- Spec/42_input_events.md R171: ADVANCE's record; TIME advances by d modulo 2^32 and nothing else changes; no other
step but RESET changes TIME. -/
def Obligations.AdvanceAddsModulo : Prop :=
  ∀ (s : State) (d : Word),
    decodeRecord (0x6#4 ++ 0x0#4 ++ 0#8 ++ d) = .ok (.advance d) ∧
    exec (.advance d) s = .next { s with time := BitVec.ofNat 32 ((s.time.toNat + d.toNat) % 2 ^ 32) } ∧
    ∀ (i : Instr) (t : State), exec i s = .next t → t.time ≠ s.time → (∃ x, i = .advance x) ∨ i = .reset

/-- Spec/42_input_events.md R172 to R176: EDGE_A's record; an edge is accepted when none has been since reset or at least 500 µs have
passed since the last accepted one, and then writes the reference and the mailbox; otherwise it changes nothing. -/
def Obligations.EdgeIsAcceptedOrChangesNothing : Prop :=
  decodeRecord 0x200000000000 = .ok .edgeA ∧
  ∀ s : State,
    ((s.enc.valid = false ∨ 500 ≤ (s.time.toNat + 2 ^ 32 - s.enc.last.toNat) % 2 ^ 32) →
      exec .edgeA s = .next { s with
        enc := { valid := true, last := s.time },
        mbox := { pending := true, dir := s.lines.encb ^^ s.dirInvert } }) ∧
    (s.enc.valid = true ∧ (s.time.toNat + 2 ^ 32 - s.enc.last.toNat) % 2 ^ 32 < 500 →
      exec .edgeA s = .next s)

/-- Spec/42_input_events.md R177, R178, R179: the three line steps' records; each sets its one line, and nothing else
changes. -/
def Obligations.LineStepsSetOneLine : Prop :=
  ∀ (s : State) (level : Bool),
    let data : Word := if level then 1 else 0
    decodeRecord (0x3#4 ++ 0x0#4 ++ 0#8 ++ data) = .ok (.setEncb level) ∧
    decodeRecord (0x4#4 ++ 0x0#4 ++ 0#8 ++ data) = .ok (.setBtn level) ∧
    decodeRecord (0x5#4 ++ 0x0#4 ++ 0#8 ++ data) = .ok (.setMode level) ∧
    exec (.setEncb level) s = .next { s with lines := ⟨level, s.lines.btn, s.lines.mode⟩ } ∧
    exec (.setBtn level) s = .next { s with lines := ⟨s.lines.encb, level, s.lines.mode⟩ } ∧
    exec (.setMode level) s = .next { s with lines := ⟨s.lines.encb, s.lines.btn, level⟩ }

/-- Spec/42_input_events.md R180: ENC_TAKE's command word and record; it copies the mailbox to ENC_SNAP and clears
pending, keeping the direction; a second one, with no accepted edge between, reports nothing pending. -/
def Obligations.TakeSnapshotsAndClears : Prop :=
  decodeCommand 3 = .ok .encTake ∧ decodeRecord 0x100000000003 = .ok (.wr 0x00 3) ∧
  ∀ s : State, exec (.wr 0x00 3) s = exec .encTake s ∧ ∃ t,
    exec .encTake s = .next t ∧
    t = { s with snap := { pending := s.mbox.pending, dir := s.mbox.dir },
                 mbox := { pending := false, dir := s.mbox.dir } } ∧
    ∀ (between : List Instr) (u v : State), acceptedDirections between t = [] →
      execAll between t = .next u → exec .encTake u = .next v → v.snap.pending = false

/-- Spec/42_input_events.md R181: an accepted edge and an ENC_TAKE, in either order, count the edge's step once: in the
snapshot if the edge comes first, else still pending for the next ENC_TAKE. -/
def Obligations.EdgeAndTakeInEitherOrderLoseNothing : Prop :=
  ∀ s : State, (s.enc.valid = false ∨ 500 ≤ (s.time.toNat + 2 ^ 32 - s.enc.last.toNat) % 2 ^ 32) →
    let dir := s.lines.encb ^^ s.dirInvert
    (∃ t, execAll [.edgeA, .encTake] s = .next t ∧ t.snap = ⟨true, dir⟩ ∧ t.mbox.pending = false) ∧
    (∃ t, execAll [.encTake, .edgeA] s = .next t ∧ t.snap = s.mbox ∧ t.mbox = ⟨true, dir⟩) ∧
    (∃ t, execAll [.encTake, .edgeA, .encTake] s = .next t ∧ t.snap = ⟨true, dir⟩ ∧ t.mbox.pending = false)

/-- Spec/42_input_events.md R182: over any run without ENC_TAKE and RESET, the accepted edges leave one pending step,
with the direction of the last of them; with none accepted, the mailbox is as before. The next ENC_TAKE reports it. -/
def Obligations.AcceptedEdgesCoalesce : Prop :=
  ∀ (run : List Instr) (s t : State),
    (∀ i ∈ run, i ≠ .reset ∧ i.runsEncTake = false) → execAll run s = .next t →
    (match (acceptedDirections run s).getLast? with
      | none => t.mbox = s.mbox
      | some dir => t.mbox = ⟨true, dir⟩ ∧ ∃ u, exec .encTake t = .next u ∧ u.snap = ⟨true, dir⟩)

/-- Spec/40_register_access.md R116 (spec/70_reset_and_hazards.md R255): a WR to CFG leaves the recorded directions, and
decides the direction of the next accepted edge. -/
def Obligations.DirectionSenseActsOnLaterEdges : Prop :=
  ∀ (s t u : State) (v : Word), exec (.wr 0x08 v) s = .next t → exec .edgeA t = .next u →
    t.mbox = s.mbox ∧ t.snap = s.snap ∧
    ((s.enc.valid = false ∨ 500 ≤ (s.time.toNat + 2 ^ 32 - s.enc.last.toNat) % 2 ^ 32) →
      u.mbox = ⟨true, s.lines.encb ^^ v.getLsbD 0⟩)

/-- Spec/70_reset_and_hazards.md R252: elapsed times are modulo 2^32. After any advances that sum to n, an edge is
accepted, and a release is a double click, by n mod 2^32. -/
def Obligations.ElapsedTimesAliasModulo : Prop :=
  ∀ (s : State) (ds : List Word), ∃ t,
    execAll (ds.map Instr.advance) s = .next t ∧
    (s.enc = ⟨true, s.time⟩ → (ds.map BitVec.toNat).sum % 2 ^ 32 < 500 → exec .edgeA t = .next t) ∧
    (s.enc = ⟨true, s.time⟩ → 500 ≤ (ds.map BitVec.toNat).sum % 2 ^ 32 →
      ∃ u, exec .edgeA t = .next u ∧ u.mbox.pending = true ∧ u.enc = ⟨true, t.time⟩) ∧
    (s.rel = ⟨true, s.time⟩ → s.modePrev = true → s.lines.mode = false →
      ∃ u, exec .sample t = .next u ∧
        u.evt.modeDouble = decide ((ds.map BitVec.toNat).sum % 2 ^ 32 < 350000) ∧
        u.evt.modeSingle = decide (350000 ≤ (ds.map BitVec.toNat).sum % 2 ^ 32))

/-! ## The button and the mode pin -/

/-- Spec/42_input_events.md R185, R187, R189 to R192: SAMPLE's command word and record, and everything it writes. -/
def Obligations.SampleRaisesItsEvents : Prop :=
  decodeCommand 2 = .ok .sample ∧ decodeRecord 0x100000000002 = .ok (.wr 0x00 2) ∧
  ∀ s : State, exec (.wr 0x00 2) s = exec .sample s ∧
    let release := s.modePrev && !s.lines.mode
    let within := s.rel.valid && decide ((s.time.toNat + 2 ^ 32 - s.rel.last.toNat) % 2 ^ 32 < 350000)
    exec .sample s = .next { s with
      evt := { btnClick := s.btnPrev && !s.lines.btn, modeSingle := release && !within,
               modeDouble := release && within },
      btnPrev := s.lines.btn,
      modePrev := s.lines.mode,
      rel := if release then { valid := true, last := s.time } else s.rel }

/-- Spec/42_input_events.md R194: neither detector reads the other's state, and one SAMPLE may raise a click together
with either mode event. -/
def Obligations.ButtonAndModeAreIndependent : Prop :=
  (∀ s s' t t' : State, exec .sample s = .next t → exec .sample s' = .next t' →
    (s.btnPrev = s'.btnPrev → s.lines.btn = s'.lines.btn →
      t.evt.btnClick = t'.evt.btnClick ∧ t.btnPrev = t'.btnPrev) ∧
    (s.modePrev = s'.modePrev → s.lines.mode = s'.lines.mode → s.rel = s'.rel → s.time = s'.time →
      t.evt.modeSingle = t'.evt.modeSingle ∧ t.evt.modeDouble = t'.evt.modeDouble ∧
      t.modePrev = t'.modePrev ∧ t.rel = t'.rel)) ∧
  (∃ s t : State, exec .sample s = .next t ∧ t.evt.btnClick = true ∧ t.evt.modeSingle = true) ∧
  (∃ s t : State, exec .sample s = .next t ∧ t.evt.btnClick = true ∧ t.evt.modeDouble = true)

/-- Spec/42_input_events.md R195 and R191: a double click that follows no release within the window raises MODE_SINGLE at
its first release and MODE_DOUBLE at its second; at 350 000 µs or more the second is single too. -/
def Obligations.DoubleClickRaisesSingleThenDouble : Prop :=
  ∀ (s : State) (d : Word),
    (s.rel.valid = false ∨ 350000 ≤ (s.time.toNat + 2 ^ 32 - s.rel.last.toNat) % 2 ^ 32) →
    ∃ t u,
      execAll [.setMode true, .sample, .setMode false, .sample] s = .next t ∧
      execAll [.advance d, .setMode true, .sample, .setMode false, .sample] t = .next u ∧
      t.evt.modeSingle = true ∧ t.evt.modeDouble = false ∧
      u.evt.modeDouble = decide (d.toNat < 350000) ∧ u.evt.modeSingle = decide (350000 ≤ d.toNat)

/-- Spec/30_encoding.md R101: `bclick` and `mclick` leave the line inactive and raise their event at the second SAMPLE,
not at the first. -/
def Obligations.ClickPseudosRaiseAtSecondSample : Prop :=
  ∀ (s : State) (lead : List Record),
    (assemble (expandPseudo .bclick) = some lead →
      ∃ t u, runSchedule 2 { s with schedule := lead } = .next t ∧ t.evt.btnClick = false ∧
        runSchedule 4 { s with schedule := lead } = .next u ∧ u.evt.btnClick = true ∧ u.lines.btn = false) ∧
    (assemble (expandPseudo .mclick) = some lead →
      ∃ t u, runSchedule 2 { s with schedule := lead } = .next t ∧
        (t.evt.modeSingle || t.evt.modeDouble) = false ∧
        runSchedule 4 { s with schedule := lead } = .next u ∧
        (u.evt.modeSingle ^^ u.evt.modeDouble) = true ∧ u.lines.mode = false)

/-- Spec/30_encoding.md R101: `plan F, O` assembles to records that write both inputs and plan for them. -/
def Obligations.PlanPseudoPlansItsInputs : Prop :=
  ∀ (s : State) (f o : Int), ∃ records,
    assemble (expandPseudo (.planWith f o)) = some records ∧
    runSchedule 3 { s with schedule := records } =
      exec .plan { s with spFreq := BitVec.ofInt 32 f, spOffset := BitVec.ofInt 32 o, schedule := [],
                          readData := none }

/-! ## Who writes what -/

/-- Spec/10_state.md R37, R39 to R45 and spec/41_synthesis.md R143: the plan registers and LOCK change only by PLAN and
RESET, the planner's inputs and CFG only by a WR to them and RESET. -/
def Obligations.PlannerStateHasItsWriters : Prop :=
  ∀ (i : Instr) (s t : State), exec i s = .next t →
    (t.plan ≠ s.plan ∨ t.lock ≠ s.lock → i.runsPlan = true ∨ i = .reset) ∧
    (t.spFreq ≠ s.spFreq → (∃ v, i = .wr 0x10 v) ∨ i = .reset) ∧
    (t.spOffset ≠ s.spOffset → (∃ v, i = .wr 0x14 v) ∨ i = .reset) ∧
    (t.dirInvert ≠ s.dirInvert → (∃ v, i = .wr 0x08 v) ∨ i = .reset)

/-- Spec/20_memory.md R80 and spec/10_state.md R46, R50, R51: the mailbox changes only by EDGE_A, ENC_TAKE and RESET, the
encoder's reference only by EDGE_A and RESET, ENC_SNAP only by ENC_TAKE and RESET. -/
def Obligations.EncoderStateHasItsWriters : Prop :=
  ∀ (i : Instr) (s t : State), exec i s = .next t →
    (t.mbox ≠ s.mbox → i = .edgeA ∨ i.runsEncTake = true ∨ i = .reset) ∧
    (t.enc ≠ s.enc → i = .edgeA ∨ i = .reset) ∧
    (t.snap ≠ s.snap → i.runsEncTake = true ∨ i = .reset) ∧
    (t.mbox.dir ≠ s.mbox.dir → i = .edgeA ∨ i = .reset)

/-- Spec/10_state.md R47, R52 to R54: EVT and the detectors' memory change only by SAMPLE and RESET. -/
def Obligations.DetectorStateHasItsWriters : Prop :=
  ∀ (i : Instr) (s t : State), exec i s = .next t →
    t.evt ≠ s.evt ∨ t.btnPrev ≠ s.btnPrev ∨ t.modePrev ≠ s.modePrev ∨ t.rel ≠ s.rel →
      i.runsSample = true ∨ i = .reset

/-- Spec/10_state.md R30, R38: each line changes only by its own step, and not by RESET; TIME only by ADVANCE and
RESET. -/
def Obligations.EnvironmentStateHasItsWriters : Prop :=
  ∀ (i : Instr) (s t : State), exec i s = .next t →
    (t.lines.encb ≠ s.lines.encb → i = .setEncb t.lines.encb) ∧
    (t.lines.btn ≠ s.lines.btn → i = .setBtn t.lines.btn) ∧
    (t.lines.mode ≠ s.lines.mode → i = .setMode t.lines.mode) ∧
    (t.time ≠ s.time → (∃ d, i = .advance d) ∨ i = .reset)

/-- Spec/41_synthesis.md R130, R147 and spec/42_input_events.md R170: over any run, neither unit learns anything of the
other: two states with the same planner end with the same planner, and two with the same decoder with the same
decoder. -/
def Obligations.PlannerAndDecoderDoNotInterfere : Prop :=
  ∀ (run : List Instr) (s s' t t' : State), execAll run s = .next t → execAll run s' = .next t' →
    (s.samePlanner s' → t.samePlanner t') ∧ (s.sameDecoder s' → t.sameDecoder t')

/-! ## Reset, runs and the invariant -/

/-- Spec/70_reset_and_hazards.md R240 and R242: RESET's record; it leaves every element of spec/10_state.md R57 at its
reset value and the lines as they are; it is the only step that clears ILL_CMD. The two fields set aside are the
model's own, not the spec's state. -/
def Obligations.ResetClearsAllButLines : Prop :=
  decodeRecord 0x700000000000 = .ok .reset ∧
  (∀ s : State, ∃ t, exec .reset s = .next t ∧ { t with schedule := s.schedule, readData := s.readData } = {
    illCmd := false, dirInvert := false, time := 0, spFreq := 0, spOffset := 0, lock := .none,
    plan := { fout := 0, pll := 0, r := 0, steps := 0, capped := false },
    snap := { pending := false, dir := false },
    evt := { btnClick := false, modeSingle := false, modeDouble := false },
    lines := s.lines,
    mbox := { pending := false, dir := false }, enc := { valid := false, last := 0 },
    btnPrev := false, modePrev := false, rel := { valid := false, last := 0 },
    schedule := s.schedule, readData := s.readData }) ∧
  ∀ (i : Instr) (s t : State), exec i s = .next t → s.illCmd = true → t.illCmd = false → i = .reset

/-- Spec/10_state.md R57, section 3: right after RESET every register of the window reads 0, but PINS, which shows the
lines. -/
def Obligations.RegistersReadZeroAfterReset : Prop :=
  ∀ (s t u : State) (off : Offset), exec .reset s = .next t → exec (.rd off) t = .next u → off ≠ 0x34 →
    u.readData = some 0

/-- Every state a run may start in (spec/70_reset_and_hazards.md R241, R242: right after RESET, the lines at any levels)
meets the block's invariant; State.reset is one of them. -/
def Obligations.LaunchMeetsInvariant : Prop :=
  (∀ (lines : Lines) (run : List Record), (State.launch lines run).Inv) ∧
  State.reset = State.launch ⟨false, false, false⟩ []

/-- Every step keeps the block's invariant (spec/10_state.md R41 to R54, spec/41_synthesis.md R150 to R152). -/
def Obligations.StepKeepsInvariant : Prop :=
  ∀ s t : State, s.Inv → step s = .next t → t.Inv

/-- Spec/20_memory.md R79, R82: every run of admitted records, from any lines, is taken to its end, and ends in a state
that meets the invariant. -/
def Obligations.AdmittedRunsComplete : Prop :=
  ∀ (lines : Lines) (run : List Record), (∀ r ∈ run, ∃ i, decodeRecord r = .ok i) →
    ∃ t, runSchedule run.length (State.launch lines run) = .next t ∧ t.schedule = [] ∧ t.Inv

/-- Spec/60_exceptions.md R211: a run from reset ends faulted exactly when an illegal command stands in it after its last
RESET. -/
def Obligations.RunIsFaultedByIllegalCommandSinceReset : Prop :=
  ∀ (lines : Lines) (run : List Instr) (t : State), execAll run (State.launch lines []) = .next t →
    (t.faulted = true ↔
      ∃ before after : List Instr, ∃ i, run = before ++ i :: after ∧ i.isIllegalCommand = true ∧ Instr.reset ∉ after)

/-- Spec/70_reset_and_hazards.md R245, R246: after a successful PLAN the host's calls carry the plan registers in the
source's order; after NO_LOCK there are none. -/
def Obligations.HostAppliesOnlySuccessfulPlans : Prop :=
  ∀ (s t : State) (p : Nat), exec .plan s = .next t →
    (t.lock = .noLock → hostCalls p t = []) ∧
    (t.lock ≠ .noLock → hostCalls p t =
      [.setPllSource .reference p, .setPllSource .quadrature p,
       .setIntegerMode .reference true, .setIntegerMode .quadrature true,
       .setFrequency .reference t.plan.fout t.plan.pll, .setFrequency .quadrature t.plan.fout t.plan.pll,
       .setPhase .reference 0, .setPhase .quadrature t.plan.steps, .resetPll p,
       .setOutputEnabled .reference true, .setOutputEnabled .quadrature true])
end

