-- ==== Sys2Proof/Laws/Decode.lean ====
section
/-! SUPPORT. The fields of a packed record (spec/30_encoding.md R94). -/

namespace Sys2Proof

/-- Each bit of a packed record is a bit of one field. -/
theorem getLsbD_packRecord (k rsv : BitVec 4) (off : Offset) (data : Word) (i : Nat) :
    (packRecord k rsv off data).getLsbD i =
      if i < 32 then data.getLsbD i
      else if i < 40 then off.getLsbD (i - 32)
      else if i < 44 then rsv.getLsbD (i - 40)
      else k.getLsbD (i - 44) := by
  have h : (packRecord k rsv off data).getLsbD i = (k ++ rsv ++ off ++ data).getLsbD i := rfl
  rw [h]
  simp only [BitVec.getLsbD_append]
  split_ifs <;> first | rfl | omega

@[simp] theorem recordKind_packRecord (k rsv : BitVec 4) (off : Offset) (data : Word) :
    recordKind (packRecord k rsv off data) = k := by
  apply BitVec.eq_of_getLsbD_eq
  intro i hi
  rw [recordKind, BitVec.getLsbD_extractLsb', getLsbD_packRecord]
  simp [hi, show ¬ 44 + i < 32 by omega, show ¬ 44 + i < 40 by omega]

@[simp] theorem recordRsv_packRecord (k rsv : BitVec 4) (off : Offset) (data : Word) :
    recordRsv (packRecord k rsv off data) = rsv := by
  apply BitVec.eq_of_getLsbD_eq
  intro i hi
  rw [recordRsv, BitVec.getLsbD_extractLsb', getLsbD_packRecord]
  simp [hi, show ¬ 40 + i < 32 by omega, show 40 + i < 44 by omega]

@[simp] theorem recordOffset_packRecord (k rsv : BitVec 4) (off : Offset) (data : Word) :
    recordOffset (packRecord k rsv off data) = off := by
  apply BitVec.eq_of_getLsbD_eq
  intro i hi
  rw [recordOffset, BitVec.getLsbD_extractLsb', getLsbD_packRecord]
  simp [hi, show 32 + i < 40 by omega]

@[simp] theorem recordData_packRecord (k rsv : BitVec 4) (off : Offset) (data : Word) :
    recordData (packRecord k rsv off data) = data := by
  apply BitVec.eq_of_getLsbD_eq
  intro i hi
  rw [recordData, BitVec.getLsbD_extractLsb', getLsbD_packRecord]
  simp [hi]

/-- A record is the packing of its four fields. -/
theorem packRecord_fields (r : Record) :
    packRecord (recordKind r) (recordRsv r) (recordOffset r) (recordData r) = r := by
  apply BitVec.eq_of_getLsbD_eq
  intro i hi
  rw [getLsbD_packRecord]
  simp only [recordKind, recordRsv, recordOffset, recordData, BitVec.getLsbD_extractLsb']
  split_ifs
  · simp [*]
  · simp [show i - 32 < 8 by omega, show 32 + (i - 32) = i by omega]
  · simp [show i - 40 < 4 by omega, show 40 + (i - 40) = i by omega]
  · simp [show i - 44 < 4 by omega, show 44 + (i - 44) = i by omega]

/-- Masking a record masks each of its fields. -/
theorem packRecord_and (k k' rsv rsv' : BitVec 4) (off off' : Offset) (data data' : Word) :
    packRecord k rsv off data &&& packRecord k' rsv' off' data' =
      packRecord (k &&& k') (rsv &&& rsv') (off &&& off') (data &&& data') := by
  apply BitVec.eq_of_getLsbD_eq
  intro i hi
  simp only [BitVec.getLsbD_and, getLsbD_packRecord]
  split_ifs <;> rfl

/-- Two records are equal exactly when their four fields are. -/
theorem packRecord_inj {k k' rsv rsv' : BitVec 4} {off off' : Offset} {data data' : Word} :
    packRecord k rsv off data = packRecord k' rsv' off' data' ↔ k = k' ∧ rsv = rsv' ∧ off = off' ∧ data = data' := by
  constructor
  · intro h
    refine ⟨?_, ?_, ?_, ?_⟩
    · simpa using congrArg recordKind h
    · simpa using congrArg recordRsv h
    · simpa using congrArg recordOffset h
    · simpa using congrArg recordData h
  · rintro ⟨rfl, rfl, rfl, rfl⟩
    rfl

/-- The DATA of a SET_* record gives its level back, and uses no other bit (spec/30_encoding.md R95, R97). -/
@[simp] theorem levelData_bit (level : Bool) : (levelData level)[0] = level := by
  cases level <;> rfl

@[simp] theorem levelData_unused (level : Bool) : (levelData level).extractLsb' 1 31 = 0 := by
  cases level <;> rfl

end Sys2Proof
end

