-- ==== Sys2Proof/Laws/State.lean ====
section
/-! SUPPORT. One lemma per field per update of State, and the fields of the states that reset and fetching make. -/

namespace Sys2Proof.Machine

/-! ## withIllCmd -/

@[simp] theorem State.withIllCmd_illCmd (s : State) (x : Bool) : (s.withIllCmd x).illCmd = x := rfl
@[simp] theorem State.withIllCmd_dirInvert (s : State) (x : Bool) : (s.withIllCmd x).dirInvert = s.dirInvert := rfl
@[simp] theorem State.withIllCmd_time (s : State) (x : Bool) : (s.withIllCmd x).time = s.time := rfl
@[simp] theorem State.withIllCmd_spFreq (s : State) (x : Bool) : (s.withIllCmd x).spFreq = s.spFreq := rfl
@[simp] theorem State.withIllCmd_spOffset (s : State) (x : Bool) : (s.withIllCmd x).spOffset = s.spOffset := rfl
@[simp] theorem State.withIllCmd_lock (s : State) (x : Bool) : (s.withIllCmd x).lock = s.lock := rfl
@[simp] theorem State.withIllCmd_plan (s : State) (x : Bool) : (s.withIllCmd x).plan = s.plan := rfl
@[simp] theorem State.withIllCmd_snap (s : State) (x : Bool) : (s.withIllCmd x).snap = s.snap := rfl
@[simp] theorem State.withIllCmd_evt (s : State) (x : Bool) : (s.withIllCmd x).evt = s.evt := rfl
@[simp] theorem State.withIllCmd_lines (s : State) (x : Bool) : (s.withIllCmd x).lines = s.lines := rfl
@[simp] theorem State.withIllCmd_mbox (s : State) (x : Bool) : (s.withIllCmd x).mbox = s.mbox := rfl
@[simp] theorem State.withIllCmd_enc (s : State) (x : Bool) : (s.withIllCmd x).enc = s.enc := rfl
@[simp] theorem State.withIllCmd_btnPrev (s : State) (x : Bool) : (s.withIllCmd x).btnPrev = s.btnPrev := rfl
@[simp] theorem State.withIllCmd_modePrev (s : State) (x : Bool) : (s.withIllCmd x).modePrev = s.modePrev := rfl
@[simp] theorem State.withIllCmd_rel (s : State) (x : Bool) : (s.withIllCmd x).rel = s.rel := rfl
@[simp] theorem State.withIllCmd_schedule (s : State) (x : Bool) : (s.withIllCmd x).schedule = s.schedule := rfl
@[simp] theorem State.withIllCmd_readData (s : State) (x : Bool) : (s.withIllCmd x).readData = s.readData := rfl

/-! ## withDirInvert -/

@[simp] theorem State.withDirInvert_illCmd (s : State) (x : Bool) : (s.withDirInvert x).illCmd = s.illCmd := rfl
@[simp] theorem State.withDirInvert_dirInvert (s : State) (x : Bool) : (s.withDirInvert x).dirInvert = x := rfl
@[simp] theorem State.withDirInvert_time (s : State) (x : Bool) : (s.withDirInvert x).time = s.time := rfl
@[simp] theorem State.withDirInvert_spFreq (s : State) (x : Bool) : (s.withDirInvert x).spFreq = s.spFreq := rfl
@[simp] theorem State.withDirInvert_spOffset (s : State) (x : Bool) : (s.withDirInvert x).spOffset = s.spOffset := rfl
@[simp] theorem State.withDirInvert_lock (s : State) (x : Bool) : (s.withDirInvert x).lock = s.lock := rfl
@[simp] theorem State.withDirInvert_plan (s : State) (x : Bool) : (s.withDirInvert x).plan = s.plan := rfl
@[simp] theorem State.withDirInvert_snap (s : State) (x : Bool) : (s.withDirInvert x).snap = s.snap := rfl
@[simp] theorem State.withDirInvert_evt (s : State) (x : Bool) : (s.withDirInvert x).evt = s.evt := rfl
@[simp] theorem State.withDirInvert_lines (s : State) (x : Bool) : (s.withDirInvert x).lines = s.lines := rfl
@[simp] theorem State.withDirInvert_mbox (s : State) (x : Bool) : (s.withDirInvert x).mbox = s.mbox := rfl
@[simp] theorem State.withDirInvert_enc (s : State) (x : Bool) : (s.withDirInvert x).enc = s.enc := rfl
@[simp] theorem State.withDirInvert_btnPrev (s : State) (x : Bool) : (s.withDirInvert x).btnPrev = s.btnPrev := rfl
@[simp] theorem State.withDirInvert_modePrev (s : State) (x : Bool) : (s.withDirInvert x).modePrev = s.modePrev := rfl
@[simp] theorem State.withDirInvert_rel (s : State) (x : Bool) : (s.withDirInvert x).rel = s.rel := rfl
@[simp] theorem State.withDirInvert_schedule (s : State) (x : Bool) : (s.withDirInvert x).schedule = s.schedule := rfl
@[simp] theorem State.withDirInvert_readData (s : State) (x : Bool) : (s.withDirInvert x).readData = s.readData := rfl

/-! ## withTime -/

@[simp] theorem State.withTime_illCmd (s : State) (x : Word) : (s.withTime x).illCmd = s.illCmd := rfl
@[simp] theorem State.withTime_dirInvert (s : State) (x : Word) : (s.withTime x).dirInvert = s.dirInvert := rfl
@[simp] theorem State.withTime_time (s : State) (x : Word) : (s.withTime x).time = x := rfl
@[simp] theorem State.withTime_spFreq (s : State) (x : Word) : (s.withTime x).spFreq = s.spFreq := rfl
@[simp] theorem State.withTime_spOffset (s : State) (x : Word) : (s.withTime x).spOffset = s.spOffset := rfl
@[simp] theorem State.withTime_lock (s : State) (x : Word) : (s.withTime x).lock = s.lock := rfl
@[simp] theorem State.withTime_plan (s : State) (x : Word) : (s.withTime x).plan = s.plan := rfl
@[simp] theorem State.withTime_snap (s : State) (x : Word) : (s.withTime x).snap = s.snap := rfl
@[simp] theorem State.withTime_evt (s : State) (x : Word) : (s.withTime x).evt = s.evt := rfl
@[simp] theorem State.withTime_lines (s : State) (x : Word) : (s.withTime x).lines = s.lines := rfl
@[simp] theorem State.withTime_mbox (s : State) (x : Word) : (s.withTime x).mbox = s.mbox := rfl
@[simp] theorem State.withTime_enc (s : State) (x : Word) : (s.withTime x).enc = s.enc := rfl
@[simp] theorem State.withTime_btnPrev (s : State) (x : Word) : (s.withTime x).btnPrev = s.btnPrev := rfl
@[simp] theorem State.withTime_modePrev (s : State) (x : Word) : (s.withTime x).modePrev = s.modePrev := rfl
@[simp] theorem State.withTime_rel (s : State) (x : Word) : (s.withTime x).rel = s.rel := rfl
@[simp] theorem State.withTime_schedule (s : State) (x : Word) : (s.withTime x).schedule = s.schedule := rfl
@[simp] theorem State.withTime_readData (s : State) (x : Word) : (s.withTime x).readData = s.readData := rfl

/-! ## withSpFreq -/

@[simp] theorem State.withSpFreq_illCmd (s : State) (x : Word) : (s.withSpFreq x).illCmd = s.illCmd := rfl
@[simp] theorem State.withSpFreq_dirInvert (s : State) (x : Word) : (s.withSpFreq x).dirInvert = s.dirInvert := rfl
@[simp] theorem State.withSpFreq_time (s : State) (x : Word) : (s.withSpFreq x).time = s.time := rfl
@[simp] theorem State.withSpFreq_spFreq (s : State) (x : Word) : (s.withSpFreq x).spFreq = x := rfl
@[simp] theorem State.withSpFreq_spOffset (s : State) (x : Word) : (s.withSpFreq x).spOffset = s.spOffset := rfl
@[simp] theorem State.withSpFreq_lock (s : State) (x : Word) : (s.withSpFreq x).lock = s.lock := rfl
@[simp] theorem State.withSpFreq_plan (s : State) (x : Word) : (s.withSpFreq x).plan = s.plan := rfl
@[simp] theorem State.withSpFreq_snap (s : State) (x : Word) : (s.withSpFreq x).snap = s.snap := rfl
@[simp] theorem State.withSpFreq_evt (s : State) (x : Word) : (s.withSpFreq x).evt = s.evt := rfl
@[simp] theorem State.withSpFreq_lines (s : State) (x : Word) : (s.withSpFreq x).lines = s.lines := rfl
@[simp] theorem State.withSpFreq_mbox (s : State) (x : Word) : (s.withSpFreq x).mbox = s.mbox := rfl
@[simp] theorem State.withSpFreq_enc (s : State) (x : Word) : (s.withSpFreq x).enc = s.enc := rfl
@[simp] theorem State.withSpFreq_btnPrev (s : State) (x : Word) : (s.withSpFreq x).btnPrev = s.btnPrev := rfl
@[simp] theorem State.withSpFreq_modePrev (s : State) (x : Word) : (s.withSpFreq x).modePrev = s.modePrev := rfl
@[simp] theorem State.withSpFreq_rel (s : State) (x : Word) : (s.withSpFreq x).rel = s.rel := rfl
@[simp] theorem State.withSpFreq_schedule (s : State) (x : Word) : (s.withSpFreq x).schedule = s.schedule := rfl
@[simp] theorem State.withSpFreq_readData (s : State) (x : Word) : (s.withSpFreq x).readData = s.readData := rfl

/-! ## withSpOffset -/

@[simp] theorem State.withSpOffset_illCmd (s : State) (x : Word) : (s.withSpOffset x).illCmd = s.illCmd := rfl
@[simp] theorem State.withSpOffset_dirInvert (s : State) (x : Word) : (s.withSpOffset x).dirInvert = s.dirInvert := rfl
@[simp] theorem State.withSpOffset_time (s : State) (x : Word) : (s.withSpOffset x).time = s.time := rfl
@[simp] theorem State.withSpOffset_spFreq (s : State) (x : Word) : (s.withSpOffset x).spFreq = s.spFreq := rfl
@[simp] theorem State.withSpOffset_spOffset (s : State) (x : Word) : (s.withSpOffset x).spOffset = x := rfl
@[simp] theorem State.withSpOffset_lock (s : State) (x : Word) : (s.withSpOffset x).lock = s.lock := rfl
@[simp] theorem State.withSpOffset_plan (s : State) (x : Word) : (s.withSpOffset x).plan = s.plan := rfl
@[simp] theorem State.withSpOffset_snap (s : State) (x : Word) : (s.withSpOffset x).snap = s.snap := rfl
@[simp] theorem State.withSpOffset_evt (s : State) (x : Word) : (s.withSpOffset x).evt = s.evt := rfl
@[simp] theorem State.withSpOffset_lines (s : State) (x : Word) : (s.withSpOffset x).lines = s.lines := rfl
@[simp] theorem State.withSpOffset_mbox (s : State) (x : Word) : (s.withSpOffset x).mbox = s.mbox := rfl
@[simp] theorem State.withSpOffset_enc (s : State) (x : Word) : (s.withSpOffset x).enc = s.enc := rfl
@[simp] theorem State.withSpOffset_btnPrev (s : State) (x : Word) : (s.withSpOffset x).btnPrev = s.btnPrev := rfl
@[simp] theorem State.withSpOffset_modePrev (s : State) (x : Word) : (s.withSpOffset x).modePrev = s.modePrev := rfl
@[simp] theorem State.withSpOffset_rel (s : State) (x : Word) : (s.withSpOffset x).rel = s.rel := rfl
@[simp] theorem State.withSpOffset_schedule (s : State) (x : Word) : (s.withSpOffset x).schedule = s.schedule := rfl
@[simp] theorem State.withSpOffset_readData (s : State) (x : Word) : (s.withSpOffset x).readData = s.readData := rfl

/-! ## withLock -/

@[simp] theorem State.withLock_illCmd (s : State) (x : LockStatus) : (s.withLock x).illCmd = s.illCmd := rfl
@[simp] theorem State.withLock_dirInvert (s : State) (x : LockStatus) : (s.withLock x).dirInvert = s.dirInvert := rfl
@[simp] theorem State.withLock_time (s : State) (x : LockStatus) : (s.withLock x).time = s.time := rfl
@[simp] theorem State.withLock_spFreq (s : State) (x : LockStatus) : (s.withLock x).spFreq = s.spFreq := rfl
@[simp] theorem State.withLock_spOffset (s : State) (x : LockStatus) : (s.withLock x).spOffset = s.spOffset := rfl
@[simp] theorem State.withLock_lock (s : State) (x : LockStatus) : (s.withLock x).lock = x := rfl
@[simp] theorem State.withLock_plan (s : State) (x : LockStatus) : (s.withLock x).plan = s.plan := rfl
@[simp] theorem State.withLock_snap (s : State) (x : LockStatus) : (s.withLock x).snap = s.snap := rfl
@[simp] theorem State.withLock_evt (s : State) (x : LockStatus) : (s.withLock x).evt = s.evt := rfl
@[simp] theorem State.withLock_lines (s : State) (x : LockStatus) : (s.withLock x).lines = s.lines := rfl
@[simp] theorem State.withLock_mbox (s : State) (x : LockStatus) : (s.withLock x).mbox = s.mbox := rfl
@[simp] theorem State.withLock_enc (s : State) (x : LockStatus) : (s.withLock x).enc = s.enc := rfl
@[simp] theorem State.withLock_btnPrev (s : State) (x : LockStatus) : (s.withLock x).btnPrev = s.btnPrev := rfl
@[simp] theorem State.withLock_modePrev (s : State) (x : LockStatus) : (s.withLock x).modePrev = s.modePrev := rfl
@[simp] theorem State.withLock_rel (s : State) (x : LockStatus) : (s.withLock x).rel = s.rel := rfl
@[simp] theorem State.withLock_schedule (s : State) (x : LockStatus) : (s.withLock x).schedule = s.schedule := rfl
@[simp] theorem State.withLock_readData (s : State) (x : LockStatus) : (s.withLock x).readData = s.readData := rfl

/-! ## withPlan -/

@[simp] theorem State.withPlan_illCmd (s : State) (x : PlanRegs) : (s.withPlan x).illCmd = s.illCmd := rfl
@[simp] theorem State.withPlan_dirInvert (s : State) (x : PlanRegs) : (s.withPlan x).dirInvert = s.dirInvert := rfl
@[simp] theorem State.withPlan_time (s : State) (x : PlanRegs) : (s.withPlan x).time = s.time := rfl
@[simp] theorem State.withPlan_spFreq (s : State) (x : PlanRegs) : (s.withPlan x).spFreq = s.spFreq := rfl
@[simp] theorem State.withPlan_spOffset (s : State) (x : PlanRegs) : (s.withPlan x).spOffset = s.spOffset := rfl
@[simp] theorem State.withPlan_lock (s : State) (x : PlanRegs) : (s.withPlan x).lock = s.lock := rfl
@[simp] theorem State.withPlan_plan (s : State) (x : PlanRegs) : (s.withPlan x).plan = x := rfl
@[simp] theorem State.withPlan_snap (s : State) (x : PlanRegs) : (s.withPlan x).snap = s.snap := rfl
@[simp] theorem State.withPlan_evt (s : State) (x : PlanRegs) : (s.withPlan x).evt = s.evt := rfl
@[simp] theorem State.withPlan_lines (s : State) (x : PlanRegs) : (s.withPlan x).lines = s.lines := rfl
@[simp] theorem State.withPlan_mbox (s : State) (x : PlanRegs) : (s.withPlan x).mbox = s.mbox := rfl
@[simp] theorem State.withPlan_enc (s : State) (x : PlanRegs) : (s.withPlan x).enc = s.enc := rfl
@[simp] theorem State.withPlan_btnPrev (s : State) (x : PlanRegs) : (s.withPlan x).btnPrev = s.btnPrev := rfl
@[simp] theorem State.withPlan_modePrev (s : State) (x : PlanRegs) : (s.withPlan x).modePrev = s.modePrev := rfl
@[simp] theorem State.withPlan_rel (s : State) (x : PlanRegs) : (s.withPlan x).rel = s.rel := rfl
@[simp] theorem State.withPlan_schedule (s : State) (x : PlanRegs) : (s.withPlan x).schedule = s.schedule := rfl
@[simp] theorem State.withPlan_readData (s : State) (x : PlanRegs) : (s.withPlan x).readData = s.readData := rfl

/-! ## withSnap -/

@[simp] theorem State.withSnap_illCmd (s : State) (x : Slot) : (s.withSnap x).illCmd = s.illCmd := rfl
@[simp] theorem State.withSnap_dirInvert (s : State) (x : Slot) : (s.withSnap x).dirInvert = s.dirInvert := rfl
@[simp] theorem State.withSnap_time (s : State) (x : Slot) : (s.withSnap x).time = s.time := rfl
@[simp] theorem State.withSnap_spFreq (s : State) (x : Slot) : (s.withSnap x).spFreq = s.spFreq := rfl
@[simp] theorem State.withSnap_spOffset (s : State) (x : Slot) : (s.withSnap x).spOffset = s.spOffset := rfl
@[simp] theorem State.withSnap_lock (s : State) (x : Slot) : (s.withSnap x).lock = s.lock := rfl
@[simp] theorem State.withSnap_plan (s : State) (x : Slot) : (s.withSnap x).plan = s.plan := rfl
@[simp] theorem State.withSnap_snap (s : State) (x : Slot) : (s.withSnap x).snap = x := rfl
@[simp] theorem State.withSnap_evt (s : State) (x : Slot) : (s.withSnap x).evt = s.evt := rfl
@[simp] theorem State.withSnap_lines (s : State) (x : Slot) : (s.withSnap x).lines = s.lines := rfl
@[simp] theorem State.withSnap_mbox (s : State) (x : Slot) : (s.withSnap x).mbox = s.mbox := rfl
@[simp] theorem State.withSnap_enc (s : State) (x : Slot) : (s.withSnap x).enc = s.enc := rfl
@[simp] theorem State.withSnap_btnPrev (s : State) (x : Slot) : (s.withSnap x).btnPrev = s.btnPrev := rfl
@[simp] theorem State.withSnap_modePrev (s : State) (x : Slot) : (s.withSnap x).modePrev = s.modePrev := rfl
@[simp] theorem State.withSnap_rel (s : State) (x : Slot) : (s.withSnap x).rel = s.rel := rfl
@[simp] theorem State.withSnap_schedule (s : State) (x : Slot) : (s.withSnap x).schedule = s.schedule := rfl
@[simp] theorem State.withSnap_readData (s : State) (x : Slot) : (s.withSnap x).readData = s.readData := rfl

/-! ## withEvt -/

@[simp] theorem State.withEvt_illCmd (s : State) (x : Events) : (s.withEvt x).illCmd = s.illCmd := rfl
@[simp] theorem State.withEvt_dirInvert (s : State) (x : Events) : (s.withEvt x).dirInvert = s.dirInvert := rfl
@[simp] theorem State.withEvt_time (s : State) (x : Events) : (s.withEvt x).time = s.time := rfl
@[simp] theorem State.withEvt_spFreq (s : State) (x : Events) : (s.withEvt x).spFreq = s.spFreq := rfl
@[simp] theorem State.withEvt_spOffset (s : State) (x : Events) : (s.withEvt x).spOffset = s.spOffset := rfl
@[simp] theorem State.withEvt_lock (s : State) (x : Events) : (s.withEvt x).lock = s.lock := rfl
@[simp] theorem State.withEvt_plan (s : State) (x : Events) : (s.withEvt x).plan = s.plan := rfl
@[simp] theorem State.withEvt_snap (s : State) (x : Events) : (s.withEvt x).snap = s.snap := rfl
@[simp] theorem State.withEvt_evt (s : State) (x : Events) : (s.withEvt x).evt = x := rfl
@[simp] theorem State.withEvt_lines (s : State) (x : Events) : (s.withEvt x).lines = s.lines := rfl
@[simp] theorem State.withEvt_mbox (s : State) (x : Events) : (s.withEvt x).mbox = s.mbox := rfl
@[simp] theorem State.withEvt_enc (s : State) (x : Events) : (s.withEvt x).enc = s.enc := rfl
@[simp] theorem State.withEvt_btnPrev (s : State) (x : Events) : (s.withEvt x).btnPrev = s.btnPrev := rfl
@[simp] theorem State.withEvt_modePrev (s : State) (x : Events) : (s.withEvt x).modePrev = s.modePrev := rfl
@[simp] theorem State.withEvt_rel (s : State) (x : Events) : (s.withEvt x).rel = s.rel := rfl
@[simp] theorem State.withEvt_schedule (s : State) (x : Events) : (s.withEvt x).schedule = s.schedule := rfl
@[simp] theorem State.withEvt_readData (s : State) (x : Events) : (s.withEvt x).readData = s.readData := rfl

/-! ## withLines -/

@[simp] theorem State.withLines_illCmd (s : State) (x : Lines) : (s.withLines x).illCmd = s.illCmd := rfl
@[simp] theorem State.withLines_dirInvert (s : State) (x : Lines) : (s.withLines x).dirInvert = s.dirInvert := rfl
@[simp] theorem State.withLines_time (s : State) (x : Lines) : (s.withLines x).time = s.time := rfl
@[simp] theorem State.withLines_spFreq (s : State) (x : Lines) : (s.withLines x).spFreq = s.spFreq := rfl
@[simp] theorem State.withLines_spOffset (s : State) (x : Lines) : (s.withLines x).spOffset = s.spOffset := rfl
@[simp] theorem State.withLines_lock (s : State) (x : Lines) : (s.withLines x).lock = s.lock := rfl
@[simp] theorem State.withLines_plan (s : State) (x : Lines) : (s.withLines x).plan = s.plan := rfl
@[simp] theorem State.withLines_snap (s : State) (x : Lines) : (s.withLines x).snap = s.snap := rfl
@[simp] theorem State.withLines_evt (s : State) (x : Lines) : (s.withLines x).evt = s.evt := rfl
@[simp] theorem State.withLines_lines (s : State) (x : Lines) : (s.withLines x).lines = x := rfl
@[simp] theorem State.withLines_mbox (s : State) (x : Lines) : (s.withLines x).mbox = s.mbox := rfl
@[simp] theorem State.withLines_enc (s : State) (x : Lines) : (s.withLines x).enc = s.enc := rfl
@[simp] theorem State.withLines_btnPrev (s : State) (x : Lines) : (s.withLines x).btnPrev = s.btnPrev := rfl
@[simp] theorem State.withLines_modePrev (s : State) (x : Lines) : (s.withLines x).modePrev = s.modePrev := rfl
@[simp] theorem State.withLines_rel (s : State) (x : Lines) : (s.withLines x).rel = s.rel := rfl
@[simp] theorem State.withLines_schedule (s : State) (x : Lines) : (s.withLines x).schedule = s.schedule := rfl
@[simp] theorem State.withLines_readData (s : State) (x : Lines) : (s.withLines x).readData = s.readData := rfl

/-! ## withMbox -/

@[simp] theorem State.withMbox_illCmd (s : State) (x : Slot) : (s.withMbox x).illCmd = s.illCmd := rfl
@[simp] theorem State.withMbox_dirInvert (s : State) (x : Slot) : (s.withMbox x).dirInvert = s.dirInvert := rfl
@[simp] theorem State.withMbox_time (s : State) (x : Slot) : (s.withMbox x).time = s.time := rfl
@[simp] theorem State.withMbox_spFreq (s : State) (x : Slot) : (s.withMbox x).spFreq = s.spFreq := rfl
@[simp] theorem State.withMbox_spOffset (s : State) (x : Slot) : (s.withMbox x).spOffset = s.spOffset := rfl
@[simp] theorem State.withMbox_lock (s : State) (x : Slot) : (s.withMbox x).lock = s.lock := rfl
@[simp] theorem State.withMbox_plan (s : State) (x : Slot) : (s.withMbox x).plan = s.plan := rfl
@[simp] theorem State.withMbox_snap (s : State) (x : Slot) : (s.withMbox x).snap = s.snap := rfl
@[simp] theorem State.withMbox_evt (s : State) (x : Slot) : (s.withMbox x).evt = s.evt := rfl
@[simp] theorem State.withMbox_lines (s : State) (x : Slot) : (s.withMbox x).lines = s.lines := rfl
@[simp] theorem State.withMbox_mbox (s : State) (x : Slot) : (s.withMbox x).mbox = x := rfl
@[simp] theorem State.withMbox_enc (s : State) (x : Slot) : (s.withMbox x).enc = s.enc := rfl
@[simp] theorem State.withMbox_btnPrev (s : State) (x : Slot) : (s.withMbox x).btnPrev = s.btnPrev := rfl
@[simp] theorem State.withMbox_modePrev (s : State) (x : Slot) : (s.withMbox x).modePrev = s.modePrev := rfl
@[simp] theorem State.withMbox_rel (s : State) (x : Slot) : (s.withMbox x).rel = s.rel := rfl
@[simp] theorem State.withMbox_schedule (s : State) (x : Slot) : (s.withMbox x).schedule = s.schedule := rfl
@[simp] theorem State.withMbox_readData (s : State) (x : Slot) : (s.withMbox x).readData = s.readData := rfl

/-! ## withEnc -/

@[simp] theorem State.withEnc_illCmd (s : State) (x : Reference) : (s.withEnc x).illCmd = s.illCmd := rfl
@[simp] theorem State.withEnc_dirInvert (s : State) (x : Reference) : (s.withEnc x).dirInvert = s.dirInvert := rfl
@[simp] theorem State.withEnc_time (s : State) (x : Reference) : (s.withEnc x).time = s.time := rfl
@[simp] theorem State.withEnc_spFreq (s : State) (x : Reference) : (s.withEnc x).spFreq = s.spFreq := rfl
@[simp] theorem State.withEnc_spOffset (s : State) (x : Reference) : (s.withEnc x).spOffset = s.spOffset := rfl
@[simp] theorem State.withEnc_lock (s : State) (x : Reference) : (s.withEnc x).lock = s.lock := rfl
@[simp] theorem State.withEnc_plan (s : State) (x : Reference) : (s.withEnc x).plan = s.plan := rfl
@[simp] theorem State.withEnc_snap (s : State) (x : Reference) : (s.withEnc x).snap = s.snap := rfl
@[simp] theorem State.withEnc_evt (s : State) (x : Reference) : (s.withEnc x).evt = s.evt := rfl
@[simp] theorem State.withEnc_lines (s : State) (x : Reference) : (s.withEnc x).lines = s.lines := rfl
@[simp] theorem State.withEnc_mbox (s : State) (x : Reference) : (s.withEnc x).mbox = s.mbox := rfl
@[simp] theorem State.withEnc_enc (s : State) (x : Reference) : (s.withEnc x).enc = x := rfl
@[simp] theorem State.withEnc_btnPrev (s : State) (x : Reference) : (s.withEnc x).btnPrev = s.btnPrev := rfl
@[simp] theorem State.withEnc_modePrev (s : State) (x : Reference) : (s.withEnc x).modePrev = s.modePrev := rfl
@[simp] theorem State.withEnc_rel (s : State) (x : Reference) : (s.withEnc x).rel = s.rel := rfl
@[simp] theorem State.withEnc_schedule (s : State) (x : Reference) : (s.withEnc x).schedule = s.schedule := rfl
@[simp] theorem State.withEnc_readData (s : State) (x : Reference) : (s.withEnc x).readData = s.readData := rfl

/-! ## withBtnPrev -/

@[simp] theorem State.withBtnPrev_illCmd (s : State) (x : Bool) : (s.withBtnPrev x).illCmd = s.illCmd := rfl
@[simp] theorem State.withBtnPrev_dirInvert (s : State) (x : Bool) : (s.withBtnPrev x).dirInvert = s.dirInvert := rfl
@[simp] theorem State.withBtnPrev_time (s : State) (x : Bool) : (s.withBtnPrev x).time = s.time := rfl
@[simp] theorem State.withBtnPrev_spFreq (s : State) (x : Bool) : (s.withBtnPrev x).spFreq = s.spFreq := rfl
@[simp] theorem State.withBtnPrev_spOffset (s : State) (x : Bool) : (s.withBtnPrev x).spOffset = s.spOffset := rfl
@[simp] theorem State.withBtnPrev_lock (s : State) (x : Bool) : (s.withBtnPrev x).lock = s.lock := rfl
@[simp] theorem State.withBtnPrev_plan (s : State) (x : Bool) : (s.withBtnPrev x).plan = s.plan := rfl
@[simp] theorem State.withBtnPrev_snap (s : State) (x : Bool) : (s.withBtnPrev x).snap = s.snap := rfl
@[simp] theorem State.withBtnPrev_evt (s : State) (x : Bool) : (s.withBtnPrev x).evt = s.evt := rfl
@[simp] theorem State.withBtnPrev_lines (s : State) (x : Bool) : (s.withBtnPrev x).lines = s.lines := rfl
@[simp] theorem State.withBtnPrev_mbox (s : State) (x : Bool) : (s.withBtnPrev x).mbox = s.mbox := rfl
@[simp] theorem State.withBtnPrev_enc (s : State) (x : Bool) : (s.withBtnPrev x).enc = s.enc := rfl
@[simp] theorem State.withBtnPrev_btnPrev (s : State) (x : Bool) : (s.withBtnPrev x).btnPrev = x := rfl
@[simp] theorem State.withBtnPrev_modePrev (s : State) (x : Bool) : (s.withBtnPrev x).modePrev = s.modePrev := rfl
@[simp] theorem State.withBtnPrev_rel (s : State) (x : Bool) : (s.withBtnPrev x).rel = s.rel := rfl
@[simp] theorem State.withBtnPrev_schedule (s : State) (x : Bool) : (s.withBtnPrev x).schedule = s.schedule := rfl
@[simp] theorem State.withBtnPrev_readData (s : State) (x : Bool) : (s.withBtnPrev x).readData = s.readData := rfl

/-! ## withModePrev -/

@[simp] theorem State.withModePrev_illCmd (s : State) (x : Bool) : (s.withModePrev x).illCmd = s.illCmd := rfl
@[simp] theorem State.withModePrev_dirInvert (s : State) (x : Bool) : (s.withModePrev x).dirInvert = s.dirInvert := rfl
@[simp] theorem State.withModePrev_time (s : State) (x : Bool) : (s.withModePrev x).time = s.time := rfl
@[simp] theorem State.withModePrev_spFreq (s : State) (x : Bool) : (s.withModePrev x).spFreq = s.spFreq := rfl
@[simp] theorem State.withModePrev_spOffset (s : State) (x : Bool) : (s.withModePrev x).spOffset = s.spOffset := rfl
@[simp] theorem State.withModePrev_lock (s : State) (x : Bool) : (s.withModePrev x).lock = s.lock := rfl
@[simp] theorem State.withModePrev_plan (s : State) (x : Bool) : (s.withModePrev x).plan = s.plan := rfl
@[simp] theorem State.withModePrev_snap (s : State) (x : Bool) : (s.withModePrev x).snap = s.snap := rfl
@[simp] theorem State.withModePrev_evt (s : State) (x : Bool) : (s.withModePrev x).evt = s.evt := rfl
@[simp] theorem State.withModePrev_lines (s : State) (x : Bool) : (s.withModePrev x).lines = s.lines := rfl
@[simp] theorem State.withModePrev_mbox (s : State) (x : Bool) : (s.withModePrev x).mbox = s.mbox := rfl
@[simp] theorem State.withModePrev_enc (s : State) (x : Bool) : (s.withModePrev x).enc = s.enc := rfl
@[simp] theorem State.withModePrev_btnPrev (s : State) (x : Bool) : (s.withModePrev x).btnPrev = s.btnPrev := rfl
@[simp] theorem State.withModePrev_modePrev (s : State) (x : Bool) : (s.withModePrev x).modePrev = x := rfl
@[simp] theorem State.withModePrev_rel (s : State) (x : Bool) : (s.withModePrev x).rel = s.rel := rfl
@[simp] theorem State.withModePrev_schedule (s : State) (x : Bool) : (s.withModePrev x).schedule = s.schedule := rfl
@[simp] theorem State.withModePrev_readData (s : State) (x : Bool) : (s.withModePrev x).readData = s.readData := rfl

/-! ## withRel -/

@[simp] theorem State.withRel_illCmd (s : State) (x : Reference) : (s.withRel x).illCmd = s.illCmd := rfl
@[simp] theorem State.withRel_dirInvert (s : State) (x : Reference) : (s.withRel x).dirInvert = s.dirInvert := rfl
@[simp] theorem State.withRel_time (s : State) (x : Reference) : (s.withRel x).time = s.time := rfl
@[simp] theorem State.withRel_spFreq (s : State) (x : Reference) : (s.withRel x).spFreq = s.spFreq := rfl
@[simp] theorem State.withRel_spOffset (s : State) (x : Reference) : (s.withRel x).spOffset = s.spOffset := rfl
@[simp] theorem State.withRel_lock (s : State) (x : Reference) : (s.withRel x).lock = s.lock := rfl
@[simp] theorem State.withRel_plan (s : State) (x : Reference) : (s.withRel x).plan = s.plan := rfl
@[simp] theorem State.withRel_snap (s : State) (x : Reference) : (s.withRel x).snap = s.snap := rfl
@[simp] theorem State.withRel_evt (s : State) (x : Reference) : (s.withRel x).evt = s.evt := rfl
@[simp] theorem State.withRel_lines (s : State) (x : Reference) : (s.withRel x).lines = s.lines := rfl
@[simp] theorem State.withRel_mbox (s : State) (x : Reference) : (s.withRel x).mbox = s.mbox := rfl
@[simp] theorem State.withRel_enc (s : State) (x : Reference) : (s.withRel x).enc = s.enc := rfl
@[simp] theorem State.withRel_btnPrev (s : State) (x : Reference) : (s.withRel x).btnPrev = s.btnPrev := rfl
@[simp] theorem State.withRel_modePrev (s : State) (x : Reference) : (s.withRel x).modePrev = s.modePrev := rfl
@[simp] theorem State.withRel_rel (s : State) (x : Reference) : (s.withRel x).rel = x := rfl
@[simp] theorem State.withRel_schedule (s : State) (x : Reference) : (s.withRel x).schedule = s.schedule := rfl
@[simp] theorem State.withRel_readData (s : State) (x : Reference) : (s.withRel x).readData = s.readData := rfl

/-! ## withSchedule -/

@[simp] theorem State.withSchedule_illCmd (s : State) (x : List Record) : (s.withSchedule x).illCmd = s.illCmd := rfl
@[simp] theorem State.withSchedule_dirInvert (s : State) (x : List Record) : (s.withSchedule x).dirInvert = s.dirInvert := rfl
@[simp] theorem State.withSchedule_time (s : State) (x : List Record) : (s.withSchedule x).time = s.time := rfl
@[simp] theorem State.withSchedule_spFreq (s : State) (x : List Record) : (s.withSchedule x).spFreq = s.spFreq := rfl
@[simp] theorem State.withSchedule_spOffset (s : State) (x : List Record) : (s.withSchedule x).spOffset = s.spOffset := rfl
@[simp] theorem State.withSchedule_lock (s : State) (x : List Record) : (s.withSchedule x).lock = s.lock := rfl
@[simp] theorem State.withSchedule_plan (s : State) (x : List Record) : (s.withSchedule x).plan = s.plan := rfl
@[simp] theorem State.withSchedule_snap (s : State) (x : List Record) : (s.withSchedule x).snap = s.snap := rfl
@[simp] theorem State.withSchedule_evt (s : State) (x : List Record) : (s.withSchedule x).evt = s.evt := rfl
@[simp] theorem State.withSchedule_lines (s : State) (x : List Record) : (s.withSchedule x).lines = s.lines := rfl
@[simp] theorem State.withSchedule_mbox (s : State) (x : List Record) : (s.withSchedule x).mbox = s.mbox := rfl
@[simp] theorem State.withSchedule_enc (s : State) (x : List Record) : (s.withSchedule x).enc = s.enc := rfl
@[simp] theorem State.withSchedule_btnPrev (s : State) (x : List Record) : (s.withSchedule x).btnPrev = s.btnPrev := rfl
@[simp] theorem State.withSchedule_modePrev (s : State) (x : List Record) : (s.withSchedule x).modePrev = s.modePrev := rfl
@[simp] theorem State.withSchedule_rel (s : State) (x : List Record) : (s.withSchedule x).rel = s.rel := rfl
@[simp] theorem State.withSchedule_schedule (s : State) (x : List Record) : (s.withSchedule x).schedule = x := rfl
@[simp] theorem State.withSchedule_readData (s : State) (x : List Record) : (s.withSchedule x).readData = s.readData := rfl

/-! ## withReadData -/

@[simp] theorem State.withReadData_illCmd (s : State) (x : Option Word) : (s.withReadData x).illCmd = s.illCmd := rfl
@[simp] theorem State.withReadData_dirInvert (s : State) (x : Option Word) : (s.withReadData x).dirInvert = s.dirInvert := rfl
@[simp] theorem State.withReadData_time (s : State) (x : Option Word) : (s.withReadData x).time = s.time := rfl
@[simp] theorem State.withReadData_spFreq (s : State) (x : Option Word) : (s.withReadData x).spFreq = s.spFreq := rfl
@[simp] theorem State.withReadData_spOffset (s : State) (x : Option Word) : (s.withReadData x).spOffset = s.spOffset := rfl
@[simp] theorem State.withReadData_lock (s : State) (x : Option Word) : (s.withReadData x).lock = s.lock := rfl
@[simp] theorem State.withReadData_plan (s : State) (x : Option Word) : (s.withReadData x).plan = s.plan := rfl
@[simp] theorem State.withReadData_snap (s : State) (x : Option Word) : (s.withReadData x).snap = s.snap := rfl
@[simp] theorem State.withReadData_evt (s : State) (x : Option Word) : (s.withReadData x).evt = s.evt := rfl
@[simp] theorem State.withReadData_lines (s : State) (x : Option Word) : (s.withReadData x).lines = s.lines := rfl
@[simp] theorem State.withReadData_mbox (s : State) (x : Option Word) : (s.withReadData x).mbox = s.mbox := rfl
@[simp] theorem State.withReadData_enc (s : State) (x : Option Word) : (s.withReadData x).enc = s.enc := rfl
@[simp] theorem State.withReadData_btnPrev (s : State) (x : Option Word) : (s.withReadData x).btnPrev = s.btnPrev := rfl
@[simp] theorem State.withReadData_modePrev (s : State) (x : Option Word) : (s.withReadData x).modePrev = s.modePrev := rfl
@[simp] theorem State.withReadData_rel (s : State) (x : Option Word) : (s.withReadData x).rel = s.rel := rfl
@[simp] theorem State.withReadData_schedule (s : State) (x : Option Word) : (s.withReadData x).schedule = s.schedule := rfl
@[simp] theorem State.withReadData_readData (s : State) (x : Option Word) : (s.withReadData x).readData = x := rfl

/-! ## resetWith and afterFetch -/

@[simp] theorem State.resetWith_illCmd (l : Lines) : (State.resetWith l).illCmd = false := rfl
@[simp] theorem State.resetWith_dirInvert (l : Lines) : (State.resetWith l).dirInvert = false := rfl
@[simp] theorem State.resetWith_time (l : Lines) : (State.resetWith l).time = 0 := rfl
@[simp] theorem State.resetWith_spFreq (l : Lines) : (State.resetWith l).spFreq = 0 := rfl
@[simp] theorem State.resetWith_spOffset (l : Lines) : (State.resetWith l).spOffset = 0 := rfl
@[simp] theorem State.resetWith_lock (l : Lines) : (State.resetWith l).lock = LockStatus.none := rfl
@[simp] theorem State.resetWith_plan (l : Lines) : (State.resetWith l).plan = PlanRegs.reset := rfl
@[simp] theorem State.resetWith_snap (l : Lines) : (State.resetWith l).snap = ⟨false, false⟩ := rfl
@[simp] theorem State.resetWith_evt (l : Lines) : (State.resetWith l).evt = ⟨false, false, false⟩ := rfl
@[simp] theorem State.resetWith_lines (l : Lines) : (State.resetWith l).lines = l := rfl
@[simp] theorem State.resetWith_mbox (l : Lines) : (State.resetWith l).mbox = ⟨false, false⟩ := rfl
@[simp] theorem State.resetWith_enc (l : Lines) : (State.resetWith l).enc = ⟨false, 0⟩ := rfl
@[simp] theorem State.resetWith_btnPrev (l : Lines) : (State.resetWith l).btnPrev = false := rfl
@[simp] theorem State.resetWith_modePrev (l : Lines) : (State.resetWith l).modePrev = false := rfl
@[simp] theorem State.resetWith_rel (l : Lines) : (State.resetWith l).rel = ⟨false, 0⟩ := rfl
@[simp] theorem State.resetWith_schedule (l : Lines) : (State.resetWith l).schedule = [] := rfl
@[simp] theorem State.resetWith_readData (l : Lines) : (State.resetWith l).readData = Option.none := rfl

@[simp] theorem State.afterFetch_illCmd (s : State) (rest : List Record) : (s.afterFetch rest).illCmd = s.illCmd := rfl
@[simp] theorem State.afterFetch_dirInvert (s : State) (rest : List Record) : (s.afterFetch rest).dirInvert = s.dirInvert := rfl
@[simp] theorem State.afterFetch_time (s : State) (rest : List Record) : (s.afterFetch rest).time = s.time := rfl
@[simp] theorem State.afterFetch_spFreq (s : State) (rest : List Record) : (s.afterFetch rest).spFreq = s.spFreq := rfl
@[simp] theorem State.afterFetch_spOffset (s : State) (rest : List Record) : (s.afterFetch rest).spOffset = s.spOffset := rfl
@[simp] theorem State.afterFetch_lock (s : State) (rest : List Record) : (s.afterFetch rest).lock = s.lock := rfl
@[simp] theorem State.afterFetch_plan (s : State) (rest : List Record) : (s.afterFetch rest).plan = s.plan := rfl
@[simp] theorem State.afterFetch_snap (s : State) (rest : List Record) : (s.afterFetch rest).snap = s.snap := rfl
@[simp] theorem State.afterFetch_evt (s : State) (rest : List Record) : (s.afterFetch rest).evt = s.evt := rfl
@[simp] theorem State.afterFetch_lines (s : State) (rest : List Record) : (s.afterFetch rest).lines = s.lines := rfl
@[simp] theorem State.afterFetch_mbox (s : State) (rest : List Record) : (s.afterFetch rest).mbox = s.mbox := rfl
@[simp] theorem State.afterFetch_enc (s : State) (rest : List Record) : (s.afterFetch rest).enc = s.enc := rfl
@[simp] theorem State.afterFetch_btnPrev (s : State) (rest : List Record) : (s.afterFetch rest).btnPrev = s.btnPrev := rfl
@[simp] theorem State.afterFetch_modePrev (s : State) (rest : List Record) : (s.afterFetch rest).modePrev = s.modePrev := rfl
@[simp] theorem State.afterFetch_rel (s : State) (rest : List Record) : (s.afterFetch rest).rel = s.rel := rfl
@[simp] theorem State.afterFetch_schedule (s : State) (rest : List Record) : (s.afterFetch rest).schedule = rest := rfl
@[simp] theorem State.afterFetch_readData (s : State) (rest : List Record) : (s.afterFetch rest).readData = none := rfl

end Sys2Proof.Machine
end

