-- ==== Sys2Proof/Laws/Ops.lean ====
section
/-! SUPPORT. For each shared operation, one lemma that says everything it can do; callers cite it instead of unfolding
the operation. -/

namespace Sys2Proof.Machine

/-! ## Offsets and registers -/

theorem regOfOffset_regOffset (r : Reg) : regOfOffset (regOffset r) = some r := by
  cases r <;> rfl

/-- An offset names the register whose offset it is, and no other. -/
theorem regOfOffset_eq_some {off : Offset} {r : Reg} : regOfOffset off = some r ↔ off = regOffset r := by
  constructor
  · intro h
    unfold regOfOffset at h
    split at h <;>
      first
        | (cases h; apply BitVec.eq_of_toNat_eq; assumption)
        | cases h
  · rintro rfl
    exact regOfOffset_regOffset r

/-- Exactly the offsets that spec/20_memory.md R73 admits name a register. -/
theorem regOfOffset_isSome (off : Offset) : (regOfOffset off).isSome = offsetAdmitted off := by
  revert off
  decide

/-! ## The shared operations, each as one record -/

theorem raiseIllegalCommand_eq (v : Word) (s : State) : raiseIllegalCommand v s = { s with illCmd := true } := rfl

theorem driveEncb_eq (s : State) (b : Bool) : driveEncb s b = { s with lines := { s.lines with encb := b } } := rfl

theorem driveBtn_eq (s : State) (b : Bool) : driveBtn s b = { s with lines := { s.lines with btn := b } } := rfl

theorem driveMode_eq (s : State) (b : Bool) : driveMode s b = { s with lines := { s.lines with mode := b } } := rfl

theorem advanceTime_eq (s : State) (d : Word) : advanceTime s d = { s with time := s.time + d } := rfl

theorem resetBlock_eq (s : State) :
    resetBlock s = { State.resetWith s.lines with schedule := s.schedule, readData := s.readData } := rfl

theorem takeStep_eq (s : State) :
    takeStep s = { s with snap := s.mbox, mbox := { s.mbox with pending := false } } := rfl

theorem sampleStep_eq (s : State) :
    sampleStep s = { s with evt := sampleEvents s, btnPrev := s.lines.btn, modePrev := s.lines.mode,
                            rel := releaseReference s } := rfl

/-- An edge is accepted and recorded, or changes nothing. -/
theorem edgeStep_cases (s : State) :
    (edgeAccepted s.enc s.time = true ∧
      edgeStep s = { s with enc := ⟨true, s.time⟩, mbox := ⟨true, edgeDirection s.lines.encb s.dirInvert⟩ }) ∨
    (edgeAccepted s.enc s.time = false ∧ edgeStep s = s) := by
  cases h : edgeAccepted s.enc s.time <;> simp [edgeStep, h, acceptEdge, State.withEnc, State.withMbox]

/-- A SAMPLE records a release, or leaves the reference. -/
theorem releaseReference_cases (s : State) :
    (modeRelease s.modePrev s.lines.mode = true ∧ releaseReference s = ⟨true, s.time⟩) ∨
    (modeRelease s.modePrev s.lines.mode = false ∧ releaseReference s = s.rel) := by
  cases h : modeRelease s.modePrev s.lines.mode <;> simp [releaseReference, h]

/-- What WR stores by itself: one of the three RW registers, or nothing. -/
theorem storeReg_cases (s : State) (v : Word) (r : Reg) :
    (r = .cfg ∧ storeReg s v r = { s with dirInvert := v.getLsbD 0 }) ∨
    (r = .spFreq ∧ storeReg s v r = { s with spFreq := v }) ∨
    (r = .spOffset ∧ storeReg s v r = { s with spOffset := v }) ∨
    storeReg s v r = s := by
  cases r <;> simp [storeReg, State.withDirInvert, State.withSpFreq, State.withSpOffset]

/-- The five things a command word can do. -/
theorem issueCommand_cases (v : Word) (s : State) :
    (v = 0 ∧ issueCommand v s = s) ∨ (v = 1 ∧ issueCommand v s = planStep s) ∨
    (v = 2 ∧ issueCommand v s = sampleStep s) ∨ (v = 3 ∧ issueCommand v s = takeStep s) ∨
    (3 < v.toNat ∧ issueCommand v s = { s with illCmd := true }) := by
  unfold issueCommand
  split
  · exact .inl ⟨BitVec.eq_of_toNat_eq ‹_›, rfl⟩
  · exact .inr (.inl ⟨BitVec.eq_of_toNat_eq ‹_›, rfl⟩)
  · exact .inr (.inr (.inl ⟨BitVec.eq_of_toNat_eq ‹_›, rfl⟩))
  · exact .inr (.inr (.inr (.inl ⟨BitVec.eq_of_toNat_eq ‹_›, rfl⟩)))
  · rename_i h0 h1 h2 h3
    have : v.toNat ≠ 0 ∧ v.toNat ≠ 1 ∧ v.toNat ≠ 2 ∧ v.toNat ≠ 3 := ⟨h0, h1, h2, h3⟩
    exact .inr (.inr (.inr (.inr ⟨by omega, rfl⟩)))

/-- Every WR is a command at CMD or a store elsewhere. -/
theorem writeReg_cases (s : State) (v : Word) (r : Reg) :
    (r = .cmd ∧ writeReg s v r = issueCommand v s) ∨ (r ≠ .cmd ∧ writeReg s v r = storeReg s v r) := by
  by_cases h : r = .cmd <;> simp [writeReg, h]

/-! ## The planner -/

/-- The two ways a divider is found. -/
theorem chooseDivider_eq_some {rmin rmax r : Nat} (h : chooseDivider rmin rmax = some r) :
    (rmin ≤ exactCandidate rmax ∧ r = exactCandidate rmax) ∨
    (exactCandidate rmax < rmin ∧ cappedCandidate rmin ≤ rmax ∧ r = cappedCandidate rmin) := by
  unfold chooseDivider at h
  split at h
  · exact .inl ⟨‹_›, by simpa using h.symm⟩
  · split at h
    · cases h
    · exact .inr ⟨by omega, by omega, by simpa using h.symm⟩

/-- What a success of the planner says. -/
theorem synthesize_eq_some {fout : Nat} {p : ExactPlan} (h : synthesize fout = some p) :
    0 < fout ∧ chooseDivider (dividerMin fout) (dividerMax fout) = some p.r ∧
    Config.pllMin ≤ fout * p.r ∧ fout * p.r ≤ Config.pllMax ∧
    p = ⟨fout, fout * p.r, p.r, phaseSteps p.r, phaseCapped p.r⟩ := by
  unfold synthesize at h
  split at h
  · cases h
  · split at h
    · cases h
    · rename_i r hr
      split at h
      · rename_i hp
        simp only [pllInRange, Bool.and_eq_true, decide_eq_true_eq] at hp
        cases h
        exact ⟨by omega, hr, hp.1, hp.2, rfl⟩
      · cases h

/-- PLAN records a plan and its status, or the status alone. -/
theorem planStep_cases (s : State) :
    (∃ p, synthesize (effectiveTarget (planFrequency s) (planOffset s)) = some p ∧
      planStep s = { s with plan := planRegsOf p, lock := lockOfPlan p.capped }) ∨
    (synthesize (effectiveTarget (planFrequency s) (planOffset s)) = none ∧
      planStep s = { s with lock := .noLock }) := by
  unfold planStep
  cases h : synthesize (effectiveTarget (planFrequency s) (planOffset s)) with
  | none => exact .inr ⟨rfl, rfl⟩
  | some p => exact .inl ⟨p, rfl, rfl⟩

/-! ## Meanings and the step -/

/-- RD returns the word of the register its offset names. -/
theorem execRd_next {off : Offset} {s t : State} (h : execRd off s = .next t) :
    ∃ r, off = regOffset r ∧ t = { s with readData := some (readReg s r) } := by
  unfold execRd at h
  split at h
  · rename_i r hr
    cases h
    exact ⟨r, regOfOffset_eq_some.mp hr, rfl⟩
  · cases h

/-- WR writes the register its offset names. -/
theorem execWr_next {off : Offset} {v : Word} {s t : State} (h : execWr off v s = .next t) :
    ∃ r, off = regOffset r ∧ t = writeReg s v r := by
  unfold execWr at h
  split at h
  · rename_i r hr
    cases h
    exact ⟨r, regOfOffset_eq_some.mp hr, rfl⟩
  · cases h

theorem execRd_regOffset (r : Reg) (s : State) :
    execRd (regOffset r) s = .next { s with readData := some (readReg s r) } := by
  simp [execRd, regOfOffset_regOffset, State.withReadData]

theorem execWr_regOffset (r : Reg) (v : Word) (s : State) :
    execWr (regOffset r) v s = .next (writeReg s v r) := by
  simp [execWr, regOfOffset_regOffset]

/-- Every way an instruction can lead to a state; every invariant of the machine follows from these twelve. -/
theorem exec_next {i : Instr} {s t : State} (h : exec i s = .next t) :
    (∃ r, i = .rd (regOffset r) ∧ t = { s with readData := some (readReg s r) }) ∨
    (∃ r v, i = .wr (regOffset r) v ∧ t = writeReg s v r) ∨
    (i = .edgeA ∧ t = edgeStep s) ∨
    (∃ b, i = .setEncb b ∧ t = driveEncb s b) ∨
    (∃ b, i = .setBtn b ∧ t = driveBtn s b) ∨
    (∃ b, i = .setMode b ∧ t = driveMode s b) ∨
    (∃ d, i = .advance d ∧ t = advanceTime s d) ∨
    (i = .reset ∧ t = resetBlock s) ∨
    (i = .nop ∧ t = s) ∨
    (i = .plan ∧ t = planStep s) ∨
    (i = .sample ∧ t = sampleStep s) ∨
    (i = .encTake ∧ t = takeStep s) := by
  cases i with
  | rd off =>
    obtain ⟨r, rfl, ht⟩ := execRd_next h
    exact .inl ⟨r, rfl, ht⟩
  | wr off v =>
    obtain ⟨r, rfl, ht⟩ := execWr_next h
    exact .inr (.inl ⟨r, v, rfl, ht⟩)
  | _ =>
    cases h
    simp

/-- What an instruction can do to the state, a WR to CMD told apart by its command: a command word and the command it
issues stand together. -/
theorem exec_next_effect {i : Instr} {s t : State} (h : exec i s = .next t) :
    (∃ r, i = .rd (regOffset r) ∧ t = { s with readData := some (readReg s r) }) ∨
    (∃ v, i = .wr 8 v ∧ t = { s with dirInvert := v.getLsbD 0 }) ∨
    (∃ v, i = .wr 0x10 v ∧ t = { s with spFreq := v }) ∨
    (∃ v, i = .wr 0x14 v ∧ t = { s with spOffset := v }) ∨
    (∃ v, i = .wr 0 v ∧ 3 < v.toNat ∧ t = { s with illCmd := true }) ∨
    (i ≠ .reset ∧ i.isIllegalCommand = false ∧ (∀ b, i ≠ .setEncb b ∧ i ≠ .setBtn b ∧ i ≠ .setMode b) ∧
      i ≠ .edgeA ∧ i.runsEncTake = false ∧ t = s) ∨
    (i = .edgeA ∧ t = edgeStep s) ∨
    (∃ b, i = .setEncb b ∧ t = driveEncb s b) ∨
    (∃ b, i = .setBtn b ∧ t = driveBtn s b) ∨
    (∃ b, i = .setMode b ∧ t = driveMode s b) ∨
    (∃ d, i = .advance d ∧ t = advanceTime s d) ∨
    (i = .reset ∧ t = resetBlock s) ∨
    (i.runsPlan = true ∧ (i = .plan ∨ i = .wr 0 1) ∧ t = planStep s) ∨
    (i.runsSample = true ∧ (i = .sample ∨ i = .wr 0 2) ∧ t = sampleStep s) ∨
    (i.runsEncTake = true ∧ (i = .encTake ∨ i = .wr 0 3) ∧ t = takeStep s) := by
  rcases exec_next h with ⟨r, h1, h2⟩ | ⟨r, v, rfl, h2⟩ | h1 | h1 | h1 | h1 | h1 | h1 | ⟨rfl, rfl⟩ |
    ⟨rfl, rfl⟩ | ⟨rfl, rfl⟩ | ⟨rfl, rfl⟩
  · exact .inl ⟨r, h1, h2⟩
  · rcases writeReg_cases s v r with ⟨rfl, h3⟩ | ⟨hr, h3⟩
    · rw [h3] at h2
      rcases issueCommand_cases v s with ⟨rfl, h4⟩ | ⟨rfl, h4⟩ | ⟨rfl, h4⟩ | ⟨rfl, h4⟩ | ⟨h5, h4⟩
      · rw [h4] at h2; subst h2; simp [Instr.isIllegalCommand, Instr.runsEncTake]
      · rw [h4] at h2; simp [Instr.runsPlan, regOffset, h2]
      · rw [h4] at h2; simp [Instr.runsSample, regOffset, h2]
      · rw [h4] at h2; simp [Instr.runsEncTake, regOffset, h2]
      · rw [h4] at h2
        exact .inr (.inr (.inr (.inr (.inl ⟨v, rfl, h5, h2⟩))))
    · rw [h3] at h2
      cases r
      case cmd => exact absurd rfl hr
      case cfg => exact .inr (.inl ⟨v, rfl, h2⟩)
      case spFreq => exact .inr (.inr (.inl ⟨v, rfl, h2⟩))
      case spOffset => exact .inr (.inr (.inr (.inl ⟨v, rfl, h2⟩)))
      all_goals
        exact .inr (.inr (.inr (.inr (.inr (.inl ⟨by simp, by simp [Instr.isIllegalCommand, regOffset], by simp,
          by simp, by simp [Instr.runsEncTake, regOffset], h2⟩)))))
  all_goals simp_all [Instr.runsPlan, Instr.runsSample, Instr.runsEncTake, Instr.isIllegalCommand]

/-- PLAN writes LOCK and the plan registers only (spec/41_synthesis.md R130). -/
theorem planStep_frame (s : State) :
    (planStep s).illCmd = s.illCmd ∧ (planStep s).dirInvert = s.dirInvert ∧ (planStep s).time = s.time ∧
    (planStep s).spFreq = s.spFreq ∧ (planStep s).spOffset = s.spOffset ∧ (planStep s).snap = s.snap ∧
    (planStep s).evt = s.evt ∧ (planStep s).lines = s.lines ∧ (planStep s).mbox = s.mbox ∧
    (planStep s).enc = s.enc ∧ (planStep s).btnPrev = s.btnPrev ∧ (planStep s).modePrev = s.modePrev ∧
    (planStep s).rel = s.rel ∧ (planStep s).schedule = s.schedule ∧ (planStep s).readData = s.readData := by
  rcases planStep_cases s with ⟨p, _, h⟩ | ⟨_, h⟩ <;> rw [h] <;> simp

/-- An edge writes the reference and the mailbox only (spec/42_input_events.md R172). -/
theorem edgeStep_frame (s : State) :
    (edgeStep s).illCmd = s.illCmd ∧ (edgeStep s).dirInvert = s.dirInvert ∧ (edgeStep s).time = s.time ∧
    (edgeStep s).spFreq = s.spFreq ∧ (edgeStep s).spOffset = s.spOffset ∧ (edgeStep s).lock = s.lock ∧
    (edgeStep s).plan = s.plan ∧ (edgeStep s).snap = s.snap ∧ (edgeStep s).evt = s.evt ∧
    (edgeStep s).lines = s.lines ∧ (edgeStep s).btnPrev = s.btnPrev ∧ (edgeStep s).modePrev = s.modePrev ∧
    (edgeStep s).rel = s.rel ∧ (edgeStep s).schedule = s.schedule ∧ (edgeStep s).readData = s.readData := by
  rcases edgeStep_cases s with ⟨p, h⟩ | ⟨_, h⟩ <;> rw [h] <;> simp

/-- A step that leads to a state takes the next record, which decodes, and runs its instruction. -/
theorem step_next {s t : State} (h : step s = .next t) :
    ∃ r rest i, s.schedule = r :: rest ∧ decodeRecord r = .ok i ∧ exec i (s.afterFetch rest) = .next t := by
  unfold step at h
  split at h
  · cases h
  · rename_i r rest hs
    split at h
    · rename_i i hi
      exact ⟨r, rest, i, hs, hi, h⟩
    · cases h

/-- The elapsed time of the IED's comparisons, in natural numbers (spec/10_state.md R38). -/
theorem elapsed_eq_elapsedUs (now earlier : Word) : elapsed now earlier = elapsedUs now earlier := by
  unfold elapsed elapsedUs
  rw [BitVec.toNat_sub]
  congr 1
  have := earlier.isLt
  omega

/-- A run of instructions in two parts. -/
theorem execAll_append (as bs : List Instr) (s : State) :
    execAll (as ++ bs) s =
      match execAll as s with
      | .next t => execAll bs t
      | .fault f => .fault f
      | .refused r => .refused r := by
  induction as generalizing s with
  | nil => rfl
  | cons i as ih =>
    simp only [List.cons_append, execAll]
    cases exec i s with
    | next t => exact ih t
    | fault f => rfl
    | refused r => rfl

end Sys2Proof.Machine
end

