-- ==== Sys2Proof/Laws/PerInstr.lean ====
section
/-! SUPPORT. For every instruction: the encoding of a well-formed one matches its own row of spec/opcode_table.json under
the row's mask, and no other row of its format (spec/30_encoding.md R92, R95, R96). One lemma per constructor. -/

namespace Sys2Proof.Laws

/-- A row of R96 whose match and mask are written as fields is matched field by field. -/
theorem rowMatches_packRecord (k rsv : BitVec 4) (off : Offset) (data : Word) (name : String) (km rm kk rk : BitVec 4)
    (om ok : Offset) (dm dk : Word) :
    rowMatches (packRecord k rsv off data) (name, packRecord km rm om dm, packRecord kk rk ok dk) =
      decide (k &&& kk = km ∧ rsv &&& rk = rm ∧ off &&& ok = om ∧ data &&& dk = dm) := by
  unfold rowMatches
  rw [packRecord_and]
  simp only [packRecord_inj]

/-- R96's rows with their matches and masks written as fields. -/
theorem recordRows_eq : recordRows =
    [ ("RD",       packRecord 0 0 0 0, packRecord 0xF 0xF 0xC3 0xFFFFFFFF),
      ("WR",       packRecord 1 0 0 0, packRecord 0xF 0xF 0xC3 0x00000000),
      ("EDGE_A",   packRecord 2 0 0 0, packRecord 0xF 0xF 0xFF 0xFFFFFFFF),
      ("SET_ENCB", packRecord 3 0 0 0, packRecord 0xF 0xF 0xFF 0xFFFFFFFE),
      ("SET_BTN",  packRecord 4 0 0 0, packRecord 0xF 0xF 0xFF 0xFFFFFFFE),
      ("SET_MODE", packRecord 5 0 0 0, packRecord 0xF 0xF 0xFF 0xFFFFFFFE),
      ("ADVANCE",  packRecord 6 0 0 0, packRecord 0xF 0xF 0xFF 0x00000000),
      ("RESET",    packRecord 7 0 0 0, packRecord 0xF 0xF 0xFF 0xFFFFFFFF) ] := rfl

/-- An offset is admitted exactly when it matches under the mask of RD and WR (spec/30_encoding.md R96). -/
theorem offset_mask (off : Offset) : (off &&& 0xC3 = 0) ↔ offsetAdmitted off = true := by
  revert off
  decide

theorem kind_mask (k : BitVec 4) : k &&& 0xF = k := by
  revert k
  decide

theorem data_mask (data : Word) : data &&& 0xFFFFFFFF = data := BitVec.and_allOnes

/-- The mnemonics of the rows an encoding matches, in its own format. -/
def matchedMnemonics : Encoding → List String
  | .record r => matchingRows r
  | .command w => (commandRows.filter fun row => decide (row.2 = w)).map (·.1)

/-- The encoding of a well-formed instruction matches its own row, and that row only. -/
def EncodingMatchesRow.Statement (i : Instr) : Prop :=
  i.wellFormed = true → matchedMnemonics (encode i) = [i.mnemonic]

theorem EncodingMatchesRow.rd (off : Offset) : EncodingMatchesRow.Statement (.rd off) := by
  intro h
  have ho : off &&& 195#8 = 0#8 := (offset_mask off).mpr h
  simp [matchedMnemonics, encode, matchingRows, recordRows_eq, List.filter, rowMatches_packRecord, ho, Instr.mnemonic]

theorem EncodingMatchesRow.wr (off : Offset) (v : Word) : EncodingMatchesRow.Statement (.wr off v) := by
  intro h
  have ho : off &&& 195#8 = 0#8 := (offset_mask off).mpr h
  simp [matchedMnemonics, encode, matchingRows, recordRows_eq, List.filter, rowMatches_packRecord, ho, Instr.mnemonic]

theorem EncodingMatchesRow.edgeA : EncodingMatchesRow.Statement .edgeA := by
  intro _
  decide

theorem EncodingMatchesRow.setEncb (level : Bool) : EncodingMatchesRow.Statement (.setEncb level) := by
  intro _
  cases level <;> decide

theorem EncodingMatchesRow.setBtn (level : Bool) : EncodingMatchesRow.Statement (.setBtn level) := by
  intro _
  cases level <;> decide

theorem EncodingMatchesRow.setMode (level : Bool) : EncodingMatchesRow.Statement (.setMode level) := by
  intro _
  cases level <;> decide

theorem EncodingMatchesRow.advance (d : Word) : EncodingMatchesRow.Statement (.advance d) := by
  intro _
  simp [matchedMnemonics, encode, matchingRows, recordRows_eq, List.filter, rowMatches_packRecord, Instr.mnemonic]

theorem EncodingMatchesRow.reset : EncodingMatchesRow.Statement .reset := by
  intro _
  decide

theorem EncodingMatchesRow.nop : EncodingMatchesRow.Statement .nop := by
  intro _
  decide

theorem EncodingMatchesRow.plan : EncodingMatchesRow.Statement .plan := by
  intro _
  decide

theorem EncodingMatchesRow.sample : EncodingMatchesRow.Statement .sample := by
  intro _
  decide

theorem EncodingMatchesRow.encTake : EncodingMatchesRow.Statement .encTake := by
  intro _
  decide

end Sys2Proof.Laws
end

