-- ==== Sys2Proof/Tests/Slice0.lean ====
section
/-! SUPPORT. Small tests: each decoder word and each expected value is from spec/ (the source stands at each test), and
one witness for each statement that has hypotheses, at the boundaries its clauses meet. -/

namespace Sys2Proof.Tests

open Sys2Proof Sys2Proof.Machine

/-! ## WellFormed: the check refuses an ill-formed term (spec/20_memory.md R73) -/

theorem test_wellFormed_refuses_misaligned_rd : (Instr.rd 0x01).wellFormed = false := by decide
theorem test_wellFormed_refuses_outside_rd : (Instr.rd 0x40).wellFormed = false := by decide
theorem test_wellFormed_refuses_misaligned_wr : (Instr.wr 0x42 0xFF).wellFormed = false := by decide
theorem test_wellFormed_refuses_outside_wr : (Instr.wr 0x40 0).wellFormed = false := by decide
theorem test_wellFormed_admits_last_offset : (Instr.wr 0x3C 0).wellFormed = true := by decide

/-! ## Decoding: records of spec/95_test_vectors.md L3 and command words of spec/30_encoding.md R92 -/

theorem test_decode_rd : decodeRecord 0x002C00000000 = .ok (.rd 0x2C) := by rfl
theorem test_decode_wr : decodeRecord 0x101001A2EE18 = .ok (.wr 0x10 27455000) := by rfl
theorem test_decode_wr_cmd : decodeRecord 0x100000000001 = .ok (.wr 0x00 1) := by rfl
theorem test_decode_edgeA : decodeRecord 0x200000000000 = .ok .edgeA := by rfl
theorem test_decode_setEncb : decodeRecord 0x300000000001 = .ok (.setEncb true) := by rfl
theorem test_decode_setBtn : decodeRecord 0x400000000000 = .ok (.setBtn false) := by rfl
theorem test_decode_setMode : decodeRecord 0x500000000001 = .ok (.setMode true) := by rfl
theorem test_decode_advance : decodeRecord 0x600000030D40 = .ok (.advance 200000) := by rfl
theorem test_decode_reset : decodeRecord 0x700000000000 = .ok .reset := by rfl
theorem test_decode_nop : decodeCommand 0x00000000 = .ok .nop := by rfl
theorem test_decode_plan : decodeCommand 0x00000001 = .ok .plan := by rfl
theorem test_decode_sample : decodeCommand 0x00000002 = .ok .sample := by rfl
theorem test_decode_encTake : decodeCommand 0x00000003 = .ok .encTake := by rfl
theorem test_decode_command_whole_word : decodeCommand 0x80000001 = .error .illegalCommand := by rfl

/-- The refused records of spec/95_test_vectors.md L2.8. -/
theorem test_decode_refuses :
    ([0x000100000000, 0x004000000000, 0x001800000001, 0x010000000000, 0x1042000000FF, 0x200000000001, 0x300000000002,
      0x6001000001F4, 0x700000000001, 0x800000000000, 0xF00000000000] : List Record).all
      (fun r => (decodeRecord r).toOption.isNone) = true := by decide

theorem test_table_word_plan : decodeTableWord 32 1 = some .plan := by rfl
theorem test_table_word_wr : decodeTableWord 48 0x103C00000000 = some (.wr 0x3C 0) := by rfl

/-! ## Helpers -/

/-- Reset with the two planner inputs written. -/
def withInputs (f o : Word) : State := { State.reset with spFreq := f, spOffset := o }

/-- Reset with an edge accepted at TIME 0 and TIME moved on. -/
def afterEdge (now : Word) : State := { State.reset with enc := ⟨true, 0⟩, time := now }

/-- Reset with a mode release seen at TIME 0, the pin seen active and now inactive, and TIME moved on. -/
def atRelease (now : Word) : State := { State.reset with rel := ⟨true, 0⟩, modePrev := true, time := now }

/-- Reset with one record loaded. -/
def loaded (r : Record) : State := { State.reset with schedule := [r] }

/-! ## Meanings, on vectors of spec/95_test_vectors.md -/

/-- L1.1: 27 455 000 Hz gives R = 32, PLL 878 560 000, exact phase. -/
theorem test_plan_scenario1 :
    nextState .plan (withInputs 27455000 0) =
      { withInputs 27455000 0 with plan := ⟨0x01A2EE18, 0x345DC300, 32, 32, false⟩, lock := .locked } := by decide

/-- L2.1 row 13: the offset is signed, path (b), R = 600, SP_PHASE 127 capped. -/
theorem test_plan_capped :
    nextState .plan (withInputs 3000000 0xFFE17B80) =
      { withInputs 3000000 0xFFE17B80 with plan := ⟨1000000, 600000000, 600, 127, true⟩, lock := .phaseLimited } := by
  decide

/-- L2.2 E2: 499 µs after the last accepted edge an edge is rejected. -/
theorem test_edge_rejected : nextState .edgeA (afterEdge 499) = afterEdge 499 := by decide

/-- L2.2 E2: at 500 µs it is accepted. -/
theorem test_edge_accepted :
    nextState .edgeA (afterEdge 500) = { afterEdge 500 with enc := ⟨true, 500⟩, mbox := ⟨true, false⟩ } := by decide

/-- L2.2 E5: a take clears pending and keeps the direction. -/
theorem test_take :
    (nextState .encTake { State.reset with mbox := ⟨true, true⟩ }).mbox = ⟨false, true⟩ ∧
    (nextState .encTake { State.reset with mbox := ⟨true, true⟩ }).snap = ⟨true, true⟩ := by decide

/-- L2.4 M1: 349 999 µs after the previous release is a double click. -/
theorem test_sample_double :
    (nextState .sample (atRelease 349999)).evt = ⟨false, false, true⟩ ∧
    (nextState .sample (atRelease 349999)).rel = ⟨true, 349999⟩ := by decide

/-- L2.4 M2 and L2.3 B5: 350 000 µs is single, together with a click. -/
theorem test_sample_single_with_click :
    (nextState .sample { atRelease 350000 with btnPrev := true }).evt = ⟨true, true, false⟩ := by decide

/-- Spec/42_input_events.md R171's example: TIME wraps. -/
theorem test_advance_wraps :
    (nextState (.advance 0x200) { State.reset with time := 0xFFFFFF00 }).time = 0x00000100 := by decide

/-- L2.5 A8: PINS shows BTN in bit 0 and ENCB in bit 2. -/
theorem test_rd_pins :
    (nextState (.rd 0x34) { State.reset with lines := ⟨true, true, false⟩ }).readData = some 0x00000005 := by decide

/-- L3 program 1: SP_PHASE of a capped plan reads 0x17F. -/
theorem test_rd_phase :
    (nextState (.rd 0x28) { State.reset with plan := ⟨1000000, 600000000, 600, 127, true⟩ }).readData =
      some 0x0000017F := by decide

/-- L2.6 X2: the smallest illegal command sets ILL_CMD. -/
theorem test_wr_illegal : nextState (.wr 0x00 4) State.reset = { State.reset with illCmd := true } := by decide

/-- L2.5 A3: CFG keeps bit 0 only. -/
theorem test_wr_cfg : (nextState (.wr 0x08 0xFFFFFFFE) { State.reset with dirInvert := true }).dirInvert = false := by
  decide

/-- L2.6 X6 and L2.7: RESET clears ILL_CMD and keeps the lines. -/
theorem test_reset_keeps_lines :
    nextState .reset { State.reset with illCmd := true, lines := ⟨true, false, true⟩ } =
      State.resetWith ⟨true, false, true⟩ := by decide

theorem test_line_steps :
    (nextState (.setEncb true) State.reset).lines = ⟨true, false, false⟩ ∧
    (nextState (.setBtn true) State.reset).lines = ⟨false, true, false⟩ ∧
    (nextState (.setMode true) State.reset).lines = ⟨false, false, true⟩ := by decide

theorem test_nop : nextState .nop (afterEdge 7) = afterEdge 7 := by decide

/-- The step runs a loaded command word's operation (spec/40_register_access.md R113). -/
theorem test_step_runs_table_word :
    Sys2Proof.core.step ((withInputs 27455000 0).withFetchWord 32 1) = exec .plan (withInputs 27455000 0) := by rfl

theorem test_step_stops_at_end : step State.reset = .refused .scheduleEmpty := by rfl

/-- Spec/30_encoding.md's worked encodings: the assembler's records. -/
theorem test_assemble :
    assemble (expandPseudo (.planWith 27455000 (-2000000)) ++ [.rd (.named "SP_STATUS"), .adv 500]) =
      some [0x101001A2EE18, 0x1014FFE17B80, 0x100000000001, 0x001800000000, 0x6000000001F4] := by decide

/-! ## Witnesses: the hypotheses of each statement, met together -/

theorem test_witness_StepRunsDecodedInstruction :
    (loaded 0x6000000001F4).schedule = 0x6000000001F4 :: [] ∧ decodeRecord 0x6000000001F4 = .ok (.advance 500) :=
  ⟨rfl, rfl⟩

theorem test_witness_StepRunsIssuedCommand :
    (loaded 0x100000000003).schedule = carryingRecord (.command 3) :: [] ∧ decodeCommand 3 = .ok .encTake := ⟨rfl, rfl⟩

theorem test_witness_FetchWordRunsNext :
    decodeTableWord 48 0x700000000000 = some .reset ∧ decodeTableWord 32 2 = some .sample := ⟨rfl, rfl⟩

/-- One admitted record, one that matches no row. -/
theorem test_witness_AdmittedRecordsStepOthersRefused :
    (loaded 0x003C00000000).schedule = [0x003C00000000] ∧ (matchingRows 0x003C00000000).length = 1 ∧
    (loaded 0x004000000000).schedule = [0x004000000000] ∧ (matchingRows 0x004000000000).length ≠ 1 ∧
    step (loaded 0x004000000000) = .refused (.inadmissibleRecord .badOffset) :=
  ⟨rfl, by decide, rfl, by decide, rfl⟩

theorem test_witness_DecodeOfEncodeIsInstruction :
    (Instr.wr 0x3C 0xFFFFFFFF).wellFormed = true ∧ Instr.encTake.wellFormed = true := by decide

theorem test_witness_EncodeOfDecodeIsEncoding :
    decode (.record 0x500000000001) = .ok (.setMode true) ∧ decode (.command 1) = .ok .plan := ⟨rfl, rfl⟩

theorem test_witness_WellFormedInstructionsComplete : (Instr.rd 0x3C).wellFormed = true := by decide

/-- The two ends of the admitted offsets. -/
theorem test_witness_RdReturnsRegisterFields :
    (0x00 : Offset).toNat % 4 = 0 ∧ (0x00 : Offset).toNat < 0x40 ∧
    (0x3C : Offset).toNat % 4 = 0 ∧ (0x3C : Offset).toNat < 0x40 := by decide

theorem test_witness_ReadsHaveNoSideEffect :
    exec (.rd 0x2C) State.reset = .next (nextState (.rd 0x2C) State.reset) := rfl

/-- Both clauses, at the offsets where they meet. -/
theorem test_witness_InadmissibleOffsetsAreRefused :
    (0x3D : Offset).toNat % 4 ≠ 0 ∧ 0x40 ≤ (0x40 : Offset).toNat ∧
    (0x3C : Offset).toNat % 4 = 0 ∧ (0x3C : Offset).toNat < 0x40 := by decide

/-- The first word outside the command map. -/
theorem test_witness_WrStoresOrStartsCommand :
    (4 : Word) ≠ 0 ∧ (4 : Word) ≠ 1 ∧ (4 : Word) ≠ 2 ∧ (4 : Word) ≠ 3 ∧
    (0x3C : Offset).toNat % 4 = 0 ∧ (0x3C : Offset).toNat < 0x40 ∧
    (0x3C : Offset) ∈ ([0x04, 0x0C, 0x18, 0x1C, 0x20, 0x24, 0x28, 0x2C, 0x30, 0x34, 0x38, 0x3C] : List Offset) := by
  decide

theorem test_witness_IllegalCommandOnlySetsStickyBit :
    4 ≤ (4 : Word).toNat ∧ 4 ≤ (0xFFFFFFFF : Word).toNat := by decide

/-- A row of the statement's list, and two writes that agree on its implemented bit. -/
theorem test_witness_ReservedBitsReadZeroAndIgnoreWrites :
    ((0x08, 0x1, 0x1) : Offset × Word × Word) ∈
      ([(0x04, 0x1, 0), (0x08, 0x1, 0x1), (0x0C, 0xFFFFFFFF, 0)] : List (Offset × Word × Word)) ∧
    (3 : Word) &&& 0x1 = 0xFFFFFFFF &&& 0x1 := by decide

theorem test_witness_WrittenInputsReadBack :
    exec (.wr 0x10 5) State.reset = .next (nextState (.wr 0x10 5) State.reset) ∧
    exec (.wr 0x14 5) State.reset = .next (nextState (.wr 0x14 5) State.reset) ∧
    exec (.wr 0x08 5) State.reset = .next (nextState (.wr 0x08 5) State.reset) := ⟨rfl, rfl, rfl⟩

theorem test_witness_IllCmdIsSetByIllegalCommandAndClearedByReset :
    exec (.wr 0x00 4) State.reset = .next (nextState (.wr 0x00 4) State.reset) := rfl

theorem test_witness_FaultStopsNoStep :
    Instr.plan ≠ .rd 0x04 ∧
    exec .plan (withInputs 10000000 0) = .next (nextState .plan (withInputs 10000000 0)) := ⟨by decide, rfl⟩

/-- The boundary sum 0 (L2.1 row 42). -/
theorem test_witness_PlanOnNonpositiveSumIsUnreachable :
    ((withInputs 0x80000000 0x80000000).spFreq.toNat : Int) + (withInputs 0x80000000 0x80000000).spOffset.toInt ≤ 0 := by
  decide

/-- The four ends of the reachable set. -/
theorem test_witness_PlanOnReachableTargetWritesPlan :
    [(666667 : Word), 4838709, 4838710, 112500000, 150000000, 225000000].all (fun f =>
      decide (((withInputs f 0).spFreq.toNat : Int) + (withInputs f 0).spOffset.toInt = f.toNat) &&
      reachableTarget f.toNat) = true := by decide

/-- The targets next to the four ends, and a negative sum. -/
theorem test_witness_PlanOnUnreachableTargetHoldsPlan :
    [withInputs 666666 0, withInputs 112500001 0, withInputs 149999999 0, withInputs 225000001 0,
     withInputs 100000 0xFFE17B80].all
      (fun s => !reachableTarget ((s.spFreq.toNat : Int) + s.spOffset.toInt)) = true := by decide

/-- Each clause at its boundaries. -/
theorem test_witness_PlannerSucceedsExactlyOnReachableSet :
    (synthesize 666667).isSome = true ∧ (synthesize 112500000).isSome = true ∧ (synthesize 150000000).isSome = true ∧
    (synthesize 225000000).isSome = true ∧ (synthesize 666666).isSome = false ∧ (synthesize 1).isSome = false ∧
    (synthesize 112500001).isSome = false ∧ (synthesize 149999999).isSome = false ∧
    (synthesize 225000001).isSome = false := by decide

/-- An exact plan with R = 124 and a capped one with R = 128. -/
theorem test_witness_SuccessfulPlanIsInRange :
    exec .plan (withInputs 4838710 0) = .next (nextState .plan (withInputs 4838710 0)) ∧
    (nextState .plan (withInputs 4838710 0)).lock ≠ .noLock ∧
    (nextState .plan (withInputs 4838710 0)).plan.r.toNat ≤ 127 ∧
    exec .plan (withInputs 4838709 0) = .next (nextState .plan (withInputs 4838709 0)) ∧
    (nextState .plan (withInputs 4838709 0)).lock ≠ .noLock ∧
    127 < (nextState .plan (withInputs 4838709 0)).plan.r.toNat :=
  ⟨rfl, by decide, by decide, rfl, by decide, by decide⟩

/-- Each path, at the targets where they meet. -/
theorem test_witness_PathDecidesDividerAndPhase :
    exec .plan (withInputs 4838710 0) = .next (nextState .plan (withInputs 4838710 0)) ∧
    (nextState .plan (withInputs 4838710 0)).lock ≠ .noLock ∧
    dividerMin 4838710 ≤ exactCandidate (dividerMax 4838710) ∧
    exec .plan (withInputs 4838709 0) = .next (nextState .plan (withInputs 4838709 0)) ∧
    (nextState .plan (withInputs 4838709 0)).lock ≠ .noLock ∧
    exactCandidate (dividerMax 4838709) < dividerMin 4838709 :=
  ⟨rfl, by decide, by decide, rfl, by decide, by decide⟩

theorem test_witness_DividerBoundsAreTight :
    0 < 225000000 ∧ 225000000 ≤ 225000000 ∧ 225000000 < 225000001 := by decide

/-- Rmin 22 and Rmax 32, with their greatest and least multiples of 4 (L1.1). -/
theorem test_witness_DividerIsLargestExactElseSmallestCapped :
    4 ≤ 22 ∧ 4 ≤ 32 ∧ IsGreatest {m : Nat | 4 ∣ m ∧ m ≤ min 32 127} 32 ∧ IsLeast {m : Nat | 4 ∣ m ∧ 22 ≤ m} 24 := by
  refine ⟨by decide, by decide, ⟨⟨by decide, by decide⟩, fun m hm => ?_⟩, ⟨⟨by decide, by decide⟩, fun m hm => ?_⟩⟩
  · exact le_trans hm.2 (by decide)
  · obtain ⟨⟨k, rfl⟩, hk⟩ := hm
    omega

theorem test_witness_ProductCheckFailsExactlyAbove225MHz : 0 < 225000001 := by decide

theorem test_witness_OtherRmaxReadingGivesSamePlan : 0 < 225000001 := by decide

/-- A band of path (a) and the band of R = 128 of path (b), at their ends. -/
theorem test_witness_DividerBandsHold :
    ((32, 25000001, 28125000) : Nat × Nat × Nat) ∈ exactBands ∧ 25000001 ≤ 28125000 ∧
    128 ≤ 900 ∧ 128 % 4 = 0 ∧ (600000000 + 128 - 1) / 128 ≤ 4838709 ∧
    4838709 + 1 ≤ (600000000 + (128 - 4) - 1) / (128 - 4) := by decide

/-- Two PLANs with a SAMPLE and a CFG write between them. -/
theorem test_witness_PlansWithSameInputsAgree :
    (∀ i ∈ [Instr.sample, Instr.wr 0x08 1], i ≠ .reset ∧ ∀ x, i ≠ .wr 0x10 x ∧ i ≠ .wr 0x14 x) ∧
    ∃ t u v, exec .plan (withInputs 10000000 0) = .next t ∧ execAll [.sample, .wr 0x08 1] t = .next u ∧
      exec .plan u = .next v :=
  ⟨by simp, _, _, _, rfl, rfl, rfl⟩

theorem test_witness_PlanDependsOnInputsAlone :
    (withInputs 10000000 0).spFreq = { withInputs 10000000 0 with time := 9 }.spFreq ∧
    (withInputs 10000000 0).spOffset = { withInputs 10000000 0 with time := 9 }.spOffset ∧
    ∃ t t', exec .plan (withInputs 10000000 0) = .next t ∧
      exec .plan { withInputs 10000000 0 with time := 9 } = .next t' ∧ t.lock ≠ .noLock :=
  ⟨rfl, rfl, _, _, rfl, rfl, by decide⟩

theorem test_witness_AdvanceAddsModulo :
    exec (.advance 500) State.reset = .next (nextState (.advance 500) State.reset) ∧
    (nextState (.advance 500) State.reset).time ≠ State.reset.time := ⟨rfl, by decide⟩

/-- Between the two takes an edge that is rejected. -/
theorem test_witness_TakeSnapshotsAndClears :
    exec .encTake (afterEdge 499) = .next (nextState .encTake (afterEdge 499)) ∧
    acceptedDirections [.edgeA] (nextState .encTake (afterEdge 499)) = [] ∧
    ∃ u v, execAll [.edgeA] (nextState .encTake (afterEdge 499)) = .next u ∧ exec .encTake u = .next v :=
  ⟨rfl, by decide, _, _, rfl, rfl⟩

theorem test_witness_EdgeIsAcceptedOrChangesNothing :
    State.reset.enc.valid = false ∧
    500 ≤ ((afterEdge 500).time.toNat + 2 ^ 32 - (afterEdge 500).enc.last.toNat) % 2 ^ 32 ∧
    (afterEdge 499).enc.valid = true ∧
    ((afterEdge 499).time.toNat + 2 ^ 32 - (afterEdge 499).enc.last.toNat) % 2 ^ 32 < 500 := by decide

theorem test_witness_EdgeAndTakeInEitherOrderLoseNothing :
    500 ≤ ((afterEdge 500).time.toNat + 2 ^ 32 - (afterEdge 500).enc.last.toNat) % 2 ^ 32 := by decide

/-- A run with one accepted edge, and a run with none. -/
theorem test_witness_AcceptedEdgesCoalesce :
    (∀ i ∈ [Instr.setEncb true, Instr.edgeA], i ≠ .reset ∧ i.runsEncTake = false) ∧
    (∃ t, execAll [.setEncb true, .edgeA] State.reset = .next t) ∧
    acceptedDirections [.setEncb true, .edgeA] State.reset = [true] ∧
    acceptedDirections [.edgeA] (afterEdge 499) = [] := ⟨by decide, ⟨_, rfl⟩, by decide, by decide⟩

theorem test_witness_DirectionSenseActsOnLaterEdges :
    (∃ t u, exec (.wr 0x08 1) (afterEdge 500) = .next t ∧ exec .edgeA t = .next u) ∧
    500 ≤ ((afterEdge 500).time.toNat + 2 ^ 32 - (afterEdge 500).enc.last.toNat) % 2 ^ 32 :=
  ⟨⟨_, _, rfl, rfl⟩, by decide⟩

/-- L2.2 E9 and L2.4 M5: advances that pass 2^32, for each clause. -/
theorem test_witness_ElapsedTimesAliasModulo :
    (afterEdge 0).enc = ⟨true, (afterEdge 0).time⟩ ∧ ([0xFFFFFFFF, 100] : List Word).map BitVec.toNat = [4294967295, 100] ∧
    (4294967295 + 100) % 2 ^ 32 < 500 ∧ 500 ≤ (4294967295 + 501) % 2 ^ 32 ∧
    (atRelease 0).rel = ⟨true, (atRelease 0).time⟩ ∧ (atRelease 0).modePrev = true ∧ (atRelease 0).lines.mode = false := by
  decide

theorem test_witness_ButtonAndModeAreIndependent :
    (∃ t t', exec .sample (atRelease 5) = .next t ∧ exec .sample { atRelease 5 with btnPrev := true } = .next t') ∧
    (atRelease 5).lines = { atRelease 5 with btnPrev := true }.lines ∧
    (atRelease 5).rel = { atRelease 5 with btnPrev := true }.rel := ⟨⟨_, _, rfl, rfl⟩, rfl, rfl⟩

theorem test_witness_DoubleClickRaisesSingleThenDouble :
    State.reset.rel.valid = false ∧
    350000 ≤ ((atRelease 350000).time.toNat + 2 ^ 32 - (atRelease 350000).rel.last.toNat) % 2 ^ 32 := by decide

theorem test_witness_ClickPseudosRaiseAtSecondSample :
    assemble (expandPseudo .bclick) = some [0x400000000001, 0x100000000002, 0x400000000000, 0x100000000002] ∧
    assemble (expandPseudo .mclick) = some [0x500000000001, 0x100000000002, 0x500000000000, 0x100000000002] := by decide

/-- Steps that do change what each of the four writers' statements speaks of. -/
theorem test_witness_PlannerStateHasItsWriters :
    exec (.wr 0x00 1) (withInputs 10000000 0) = .next (nextState (.wr 0x00 1) (withInputs 10000000 0)) ∧
    (nextState (.wr 0x00 1) (withInputs 10000000 0)).lock ≠ (withInputs 10000000 0).lock ∧
    (nextState (.wr 0x10 1) State.reset).spFreq ≠ State.reset.spFreq ∧
    (nextState (.wr 0x14 1) State.reset).spOffset ≠ State.reset.spOffset ∧
    (nextState (.wr 0x08 1) State.reset).dirInvert ≠ State.reset.dirInvert :=
  ⟨rfl, by decide, by decide, by decide, by decide⟩

theorem test_witness_EncoderStateHasItsWriters :
    exec .edgeA { State.reset with lines := ⟨true, false, false⟩ } =
      .next (nextState .edgeA { State.reset with lines := ⟨true, false, false⟩ }) ∧
    (nextState .edgeA { State.reset with lines := ⟨true, false, false⟩ }).mbox = ⟨true, true⟩ ∧
    (nextState .edgeA State.reset).enc ≠ State.reset.enc ∧
    (nextState .encTake { State.reset with mbox := ⟨true, true⟩ }).snap ≠ State.reset.snap :=
  ⟨rfl, by decide, by decide, by decide⟩

theorem test_witness_DetectorStateHasItsWriters :
    exec .sample (atRelease 5) = .next (nextState .sample (atRelease 5)) ∧
    (nextState .sample (atRelease 5)).evt ≠ (atRelease 5).evt := ⟨rfl, by decide⟩

theorem test_witness_EnvironmentStateHasItsWriters :
    exec (.setBtn true) State.reset = .next (nextState (.setBtn true) State.reset) ∧
    (nextState (.setBtn true) State.reset).lines.btn ≠ State.reset.lines.btn ∧
    (nextState (.setEncb true) State.reset).lines.encb ≠ State.reset.lines.encb ∧
    (nextState (.setMode true) State.reset).lines.mode ≠ State.reset.lines.mode ∧
    (nextState (.advance 1) State.reset).time ≠ State.reset.time := ⟨rfl, by decide, by decide, by decide, by decide⟩

/-- Two states with one planner and different decoders, and one with the other's roles. -/
theorem test_witness_PlannerAndDecoderDoNotInterfere :
    (∃ t t', execAll [.plan, .sample] (withInputs 10000000 0) = .next t ∧
      execAll [.plan, .sample] { withInputs 10000000 0 with time := 9 } = .next t') ∧
    (withInputs 10000000 0).samePlanner { withInputs 10000000 0 with time := 9 } ∧
    (withInputs 10000000 0).sameDecoder State.reset :=
  ⟨⟨_, _, rfl, rfl⟩, ⟨rfl, rfl, rfl, rfl⟩, ⟨rfl, rfl, rfl, rfl, rfl, rfl, rfl, rfl, rfl, rfl⟩⟩

theorem test_witness_ResetClearsAllButLines :
    exec .reset { State.reset with illCmd := true } = .next (nextState .reset { State.reset with illCmd := true }) ∧
    ({ State.reset with illCmd := true } : State).illCmd = true ∧
    (nextState .reset { State.reset with illCmd := true }).illCmd = false := ⟨rfl, rfl, rfl⟩

theorem test_witness_RegistersReadZeroAfterReset :
    ∃ t u, exec .reset (atRelease 5) = .next t ∧ exec (.rd 0x3C) t = .next u ∧ (0x3C : Offset) ≠ 0x34 :=
  ⟨_, _, rfl, rfl, by decide⟩

/-- A state that meets the invariant with a plan held, an edge accepted and a release seen, and a step from it. -/
theorem test_witness_StepKeepsInvariant :
    let s : State := { State.reset with
      plan := ⟨0x01A2EE18, 0x345DC300, 32, 32, false⟩, lock := .locked, enc := ⟨true, 5⟩, mbox := ⟨true, true⟩,
      rel := ⟨true, 7⟩, evt := ⟨true, true, false⟩, schedule := [0x100000000002] }
    s.Inv ∧ ∃ t, step s = .next t := by
  have held : PlanRegs.holdsPlan ⟨0x01A2EE18, 0x345DC300, 32, 32, false⟩ := by unfold PlanRegs.holdsPlan; decide
  exact ⟨⟨by decide, .inr held, fun _ => ⟨held, rfl⟩, nofun, by decide, by decide, by decide, by decide,
    by decide, by decide⟩, _, rfl⟩

theorem test_witness_AdmittedRunsComplete :
    ∀ r ∈ ([0x500000000001, 0x100000000002] : List Record), ∃ i, decodeRecord r = .ok i := by
  intro r hr
  simp only [List.mem_cons, List.not_mem_nil, or_false] at hr
  rcases hr with rfl | rfl
  · exact ⟨_, rfl⟩
  · exact ⟨_, rfl⟩

theorem test_witness_RunIsFaultedByIllegalCommandSinceReset :
    ∃ t, execAll [.reset, .wr 0x00 4, .nop] (State.launch ⟨true, false, false⟩ []) = .next t ∧ t.faulted = true :=
  ⟨_, rfl, rfl⟩

theorem test_witness_HostAppliesOnlySuccessfulPlans :
    exec .plan (withInputs 27455000 0) = .next (nextState .plan (withInputs 27455000 0)) ∧
    (nextState .plan (withInputs 27455000 0)).lock ≠ .noLock ∧
    exec .plan (withInputs 144000000 0) = .next (nextState .plan (withInputs 144000000 0)) ∧
    (nextState .plan (withInputs 144000000 0)).lock = .noLock := ⟨rfl, by decide, rfl, by decide⟩

end Sys2Proof.Tests
end

section
/-! PROOFS. The state and its writers (spec/10_state.md): what one instruction can do to the state as one inductive
relation, who writes each element of the state, and the block's invariant under every step. -/

namespace Sys2Proof.Machine

/-! ## The effect of an instruction -/

/-- What an instruction that completes can do to the state, one constructor per effect: a command stands together with
the WR to CMD that issues it, a conditional operation has one constructor per outcome. -/
inductive Effect (s : State) : Instr → State → Prop where
  /-- RD returns a register's word (spec/40_register_access.md R110). -/
  | read (r : Reg) : Effect s (.rd (regOffset r)) { s with readData := some (readReg s r) }
  /-- A WR to CFG (spec/10_state.md R37). -/
  | storeCfg (v : Word) : Effect s (.wr 0x08 v) { s with dirInvert := v.getLsbD 0 }
  /-- A WR to SP_FREQ (spec/10_state.md R39). -/
  | storeFreq (v : Word) : Effect s (.wr 0x10 v) { s with spFreq := v }
  /-- A WR to SP_OFFSET (spec/10_state.md R40). -/
  | storeOffset (v : Word) : Effect s (.wr 0x14 v) { s with spOffset := v }
  /-- A WR of an illegal command to CMD (spec/40_register_access.md R118). -/
  | illegal (v : Word) (hv : 3 < v.toNat) : Effect s (.wr 0x00 v) { s with illCmd := true }
  /-- NOP, a WR that stores nothing, and a rejected edge (spec/42_input_events.md R176). -/
  | unchanged (i : Instr) : Effect s i s
  /-- An accepted edge (spec/42_input_events.md R175). -/
  | edge (ha : edgeAccepted s.enc s.time = true) : Effect s .edgeA
      { s with enc := ⟨true, s.time⟩, mbox := ⟨true, edgeDirection s.lines.encb s.dirInvert⟩ }
  /-- SET_ENCB (spec/42_input_events.md R177). -/
  | setEncb (b : Bool) : Effect s (.setEncb b) { s with lines := { s.lines with encb := b } }
  /-- SET_BTN (spec/42_input_events.md R178). -/
  | setBtn (b : Bool) : Effect s (.setBtn b) { s with lines := { s.lines with btn := b } }
  /-- SET_MODE (spec/42_input_events.md R179). -/
  | setMode (b : Bool) : Effect s (.setMode b) { s with lines := { s.lines with mode := b } }
  /-- ADVANCE (spec/42_input_events.md R171). -/
  | advance (d : Word) : Effect s (.advance d) { s with time := s.time + d }
  /-- RESET (spec/70_reset_and_hazards.md R240). -/
  | reset : Effect s .reset (resetBlock s)
  /-- PLAN on a reachable target (spec/41_synthesis.md R142, R145). -/
  | planned (i : Instr) (p : ExactPlan) (hi : i.runsPlan = true)
      (hp : synthesize (effectiveTarget (planFrequency s) (planOffset s)) = some p) :
      Effect s i { s with plan := planRegsOf p, lock := lockOfPlan p.capped }
  /-- PLAN on an unreachable target (spec/41_synthesis.md R144, R146). -/
  | unreachable (i : Instr) (hi : i.runsPlan = true)
      (hp : synthesize (effectiveTarget (planFrequency s) (planOffset s)) = none) :
      Effect s i { s with lock := .noLock }
  /-- SAMPLE (spec/42_input_events.md R185). -/
  | sample (i : Instr) (hi : i.runsSample = true) : Effect s i
      { s with evt := sampleEvents s, btnPrev := s.lines.btn, modePrev := s.lines.mode, rel := releaseReference s }
  /-- ENC_TAKE (spec/42_input_events.md R180). -/
  | take (i : Instr) (hi : i.runsEncTake = true) : Effect s i
      { s with snap := s.mbox, mbox := { s.mbox with pending := false } }

/-- An EDGE_A is accepted or changes nothing. -/
theorem effect_edgeStep (s : State) : Effect s .edgeA (edgeStep s) := by
  rcases edgeStep_cases s with ⟨ha, h⟩ | ⟨_, h⟩ <;> rw [h]
  · exact .edge ha
  · exact .unchanged _

/-- A PLAN records a plan or NO_LOCK. -/
theorem effect_planStep {i : Instr} (s : State) (hi : i.runsPlan = true) : Effect s i (planStep s) := by
  rcases planStep_cases s with ⟨p, hp, h⟩ | ⟨hp, h⟩ <;> rw [h]
  · exact .planned i p hi hp
  · exact .unreachable i hi hp

/-- Every instruction that completes has one of the effects. -/
theorem effect_of_exec {i : Instr} {s t : State} (h : exec i s = .next t) : Effect s i t := by
  rcases exec_next_effect h with ⟨r, rfl, rfl⟩ | ⟨v, rfl, rfl⟩ | ⟨v, rfl, rfl⟩ | ⟨v, rfl, rfl⟩ |
    ⟨v, rfl, hv, rfl⟩ | ⟨_, _, _, _, _, rfl⟩ | ⟨rfl, rfl⟩ | ⟨b, rfl, rfl⟩ | ⟨b, rfl, rfl⟩ | ⟨b, rfl, rfl⟩ |
    ⟨d, rfl, rfl⟩ | ⟨rfl, rfl⟩ | ⟨hi, _, rfl⟩ | ⟨hi, _, rfl⟩ | ⟨hi, _, rfl⟩
  · exact .read r
  · exact .storeCfg v
  · exact .storeFreq v
  · exact .storeOffset v
  · exact .illegal v hv
  · exact .unchanged i
  · exact effect_edgeStep s
  · exact .setEncb b
  · exact .setBtn b
  · exact .setMode b
  · exact .advance d
  · exact .reset
  · exact effect_planStep s hi
  · exact .sample i hi
  · exact .take i hi

/-! ## A successful plan -/

theorem four_le_dividerMin (fout : Nat) : 4 ≤ dividerMin fout := le_max_left ..

theorem dividerMax_le (fout : Nat) : dividerMax fout ≤ 900 := by
  unfold dividerMax Config.rLow Config.rHigh
  omega

/-- Path (a)'s candidate is a multiple of 4 that fits the phase register (spec/41_synthesis.md R137). -/
theorem exactCandidate_bounds (rmax : Nat) : exactCandidate rmax ≤ 127 ∧ exactCandidate rmax % 4 = 0 := by
  unfold exactCandidate Config.rMult Config.phaseMax
  omega

/-- Path (b)'s divider is a multiple of 4 that is not below the least divider (spec/41_synthesis.md R138). -/
theorem cappedCandidate_bounds (rmin : Nat) : rmin ≤ cappedCandidate rmin ∧ cappedCandidate rmin % 4 = 0 := by
  unfold cappedCandidate ceilDiv Config.rMult
  omega

/-- A chosen divider is a multiple of 4 in [4, 900], on either path (spec/41_synthesis.md R151). -/
theorem chooseDivider_bounds {fout r : Nat} (h : chooseDivider (dividerMin fout) (dividerMax fout) = some r) :
    4 ≤ r ∧ r ≤ 900 ∧ r % 4 = 0 := by
  have hmin := four_le_dividerMin fout
  have hmax := dividerMax_le fout
  have ha := exactCandidate_bounds (dividerMax fout)
  have hb := cappedCandidate_bounds (dividerMin fout)
  rcases chooseDivider_eq_some h with ⟨_, rfl⟩ | ⟨_, _, rfl⟩ <;> omega

theorem phaseSteps_eq_min (r : Nat) : phaseSteps r = min r 127 := by
  by_cases h : 127 < r <;> simp [phaseSteps, phaseCapped, Config.phaseMax, h] <;> omega

/-- The registers a successful PLAN writes hold a plan: no value is cut off by its register's width
(spec/41_synthesis.md R150 to R152). -/
theorem planRegsOf_holdsPlan {fout : Nat} {p : ExactPlan} (h : synthesize fout = some p) :
    (planRegsOf p).holdsPlan := by
  obtain ⟨_, hr, hlow, hhigh, hp⟩ := synthesize_eq_some h
  obtain ⟨r4, r900, rmod⟩ := chooseDivider_bounds hr
  rw [hp]
  generalize p.r = r at *
  unfold Config.pllMin at hlow
  unfold Config.pllMax at hhigh
  have hfout : fout ≤ fout * r := Nat.le_mul_of_pos_right fout (by omega)
  have foutFits : fout % 2 ^ 32 = fout := Nat.mod_eq_of_lt (by omega)
  have pllFits : fout * r % 2 ^ 32 = fout * r := Nat.mod_eq_of_lt (by omega)
  have rFits : r % 2 ^ 10 = r := Nat.mod_eq_of_lt (by omega)
  have stepsFit : min r 127 % 2 ^ 7 = min r 127 := Nat.mod_eq_of_lt (by omega)
  unfold PlanRegs.holdsPlan
  simp only [planRegsOf, BitVec.toNat_ofNat, foutFits, pllFits, rFits, phaseSteps_eq_min, stepsFit]
  exact ⟨trivial, hlow, hhigh, r4, r900, rmod, rfl, trivial⟩

/-! ## The invariant -/

/-- RESET leads to a state that meets the invariant, whatever state it is taken in. -/
theorem resetBlock_inv (s : State) : (resetBlock s).Inv where
  unplanned _ := rfl
  plan := .inl rfl
  locked := nofun
  limited := nofun
  oneModeEvent := rfl
  clickReleased := nofun
  modeReleased := nofun
  stepsFromEdges := nofun
  encUnset _ := rfl
  relUnset _ := rfl

/-- LOCK after a successful plan says that a plan is held, and which of the two kinds (spec/41_synthesis.md R145). -/
theorem lockOfPlan_eq_locked {capped : Bool} : lockOfPlan capped = .locked ↔ capped = false := by
  cases capped <;> simp [lockOfPlan]

theorem lockOfPlan_eq_phaseLimited {capped : Bool} : lockOfPlan capped = .phaseLimited ↔ capped = true := by
  cases capped <;> simp [lockOfPlan]

theorem lockOfPlan_ne_none (capped : Bool) : lockOfPlan capped ≠ .none := by
  cases capped <;> simp [lockOfPlan]

/-- A SAMPLE raises a single or a double click, never both (spec/42_input_events.md R190). -/
theorem sampleEvents_exclusive (s : State) :
    ((sampleEvents s).modeSingle && (sampleEvents s).modeDouble) = false := by
  cases h : withinWindow s.rel s.time <;> simp [sampleEvents, modeSingle, modeDouble, h]

/-- A click means that the button is inactive now (spec/42_input_events.md R187). -/
theorem btn_inactive_of_click {s : State} (h : (sampleEvents s).btnClick = true) : s.lines.btn = false := by
  simp only [sampleEvents, sampleButton, buttonClick, Bool.and_eq_true, Bool.not_eq_true'] at h
  exact h.2

/-- A mode event means that the mode pin is released (spec/42_input_events.md R189, R190). -/
theorem modeRelease_of_modeEvent {s : State}
    (h : ((sampleEvents s).modeSingle || (sampleEvents s).modeDouble) = true) :
    modeRelease s.modePrev s.lines.mode = true := by
  cases hr : modeRelease s.modePrev s.lines.mode with
  | true => rfl
  | false => simp [sampleEvents, modeSingle, modeDouble, hr] at h

/-- A released pin is inactive, and its release is recorded (spec/42_input_events.md R189, R191). -/
theorem recorded_of_modeRelease {s : State} (h : modeRelease s.modePrev s.lines.mode = true) :
    s.lines.mode = false ∧ (releaseReference s).valid = true := by
  refine ⟨?_, by simp [releaseReference, h]⟩
  simp only [modeRelease, Bool.and_eq_true, Bool.not_eq_true'] at h
  exact h.2

/-- A SAMPLE keeps the release reference at its reset value as long as it sees no release. -/
theorem releaseReference_unset {s : State} (h : s.rel.valid = false → s.rel.last = 0) :
    (releaseReference s).valid = false → (releaseReference s).last = 0 := by
  rcases releaseReference_cases s with ⟨_, hr⟩ | ⟨_, hr⟩ <;> rw [hr]
  · nofun
  · exact h

/-- A step in the mailbox comes from an accepted edge (spec/10_state.md R50, R51). -/
theorem State.Inv.enc_valid_of_mbox {s : State} (h : s.Inv) (hm : (s.mbox.pending || s.mbox.dir) = true) :
    s.enc.valid = true :=
  h.stepsFromEdges (by simp [hm])

/-- Every effect of an instruction keeps the invariant. An effect on one unit leaves the clauses about the others as
they are. -/
theorem Effect.inv {s t : State} {i : Instr} (e : Effect s i t) (h : s.Inv) : t.Inv := by
  cases e with
  | reset => exact resetBlock_inv s
  | planned _ p _ hp =>
    have held : (planRegsOf p).holdsPlan := planRegsOf_holdsPlan hp
    exact { h with
      unplanned := fun hl => absurd hl (lockOfPlan_ne_none _)
      plan := .inr held
      locked := fun hl => ⟨held, lockOfPlan_eq_locked.mp hl⟩
      limited := fun hl => ⟨held, lockOfPlan_eq_phaseLimited.mp hl⟩ }
  | unreachable => exact { h with unplanned := nofun, locked := nofun, limited := nofun }
  | sample =>
    exact { h with
      oneModeEvent := sampleEvents_exclusive s
      clickReleased := btn_inactive_of_click
      modeReleased := fun he => recorded_of_modeRelease (modeRelease_of_modeEvent he)
      relUnset := releaseReference_unset h.relUnset }
  | edge => exact { h with stepsFromEdges := fun _ => rfl, encUnset := nofun }
  | take =>
    exact { h with stepsFromEdges := fun hs => h.enc_valid_of_mbox (by simpa [or_comm, or_left_comm] using hs) }
  | _ => exact { h with }

/-- Taking a record off the schedule touches nothing the invariant speaks of. -/
theorem State.Inv.afterFetch {s : State} (h : s.Inv) (rest : List Record) : (s.afterFetch rest).Inv := { h with }

/-- Settles O53: the step runs an instruction after the fetch, and neither the fetch nor an instruction's effect breaks
the invariant. -/
theorem stepKeepsInvariant : Obligations.StepKeepsInvariant := by
  intro s t hs hstep
  obtain ⟨r, rest, i, _, _, hexec⟩ := step_next hstep
  exact (effect_of_exec hexec).inv (hs.afterFetch rest)

/-! ## Who writes what -/

/-- Settles O45: of the effects, only a plan, RESET and the three stores touch the planner's state and CFG. -/
theorem plannerStateHasItsWriters : Obligations.PlannerStateHasItsWriters := by
  intro i s t h
  cases effect_of_exec h with
  | planned _ _ hi | unreachable _ hi => exact ⟨fun _ => .inl hi, by simp, by simp, by simp⟩
  | storeFreq v => exact ⟨by simp, fun _ => .inl ⟨v, rfl⟩, by simp, by simp⟩
  | storeOffset v => exact ⟨by simp, by simp, fun _ => .inl ⟨v, rfl⟩, by simp⟩
  | storeCfg v => exact ⟨by simp, by simp, by simp, fun _ => .inl ⟨v, rfl⟩⟩
  | reset => exact ⟨fun _ => .inr rfl, fun _ => .inr rfl, fun _ => .inr rfl, fun _ => .inr rfl⟩
  | _ => simp

/-- Settles O46: of the effects, only an accepted edge, ENC_TAKE and RESET touch the encoder's state; ENC_TAKE keeps
the direction. -/
theorem encoderStateHasItsWriters : Obligations.EncoderStateHasItsWriters := by
  intro i s t h
  cases effect_of_exec h with
  | edge => exact ⟨fun _ => .inl rfl, fun _ => .inl rfl, by simp, fun _ => .inl rfl⟩
  | take _ hi => exact ⟨fun _ => .inr (.inl hi), by simp, fun _ => .inl hi, by simp⟩
  | reset => exact ⟨fun _ => .inr (.inr rfl), fun _ => .inr rfl, fun _ => .inr rfl, fun _ => .inr rfl⟩
  | _ => simp

/-- Settles O47: of the effects, only SAMPLE and RESET touch EVT and the detectors' memory. -/
theorem detectorStateHasItsWriters : Obligations.DetectorStateHasItsWriters := by
  intro i s t h
  cases effect_of_exec h with
  | sample _ hi => exact fun _ => .inl hi
  | reset => exact fun _ => .inr rfl
  | _ => simp

/-- Settles O48: of the effects, only the three line steps touch the lines, each its own; only ADVANCE and RESET touch
TIME, and RESET leaves the lines. -/
theorem environmentStateHasItsWriters : Obligations.EnvironmentStateHasItsWriters := by
  intro i s t h
  cases effect_of_exec h with
  | setEncb b => exact ⟨fun _ => rfl, by simp, by simp, by simp⟩
  | setBtn b => exact ⟨by simp, fun _ => rfl, by simp, by simp⟩
  | setMode b => exact ⟨by simp, by simp, fun _ => rfl, by simp⟩
  | advance d => exact ⟨by simp, by simp, by simp, fun _ => .inl ⟨d, rfl⟩⟩
  | reset => exact ⟨by simp [resetBlock_eq], by simp [resetBlock_eq], by simp [resetBlock_eq], fun _ => .inr rfl⟩
  | _ => simp

/-! ## Reads after RESET -/

theorem phaseWord_reset : phaseWord .reset = 0 := by decide

theorem snapWord_empty : snapWord ⟨false, false⟩ = 0 := by decide

theorem evtWord_none : evtWord ⟨false, false, false⟩ = 0 := by decide

/-- After RESET every register but PINS holds 0 (spec/10_state.md R57); PINS shows the lines (R48). -/
theorem readReg_resetBlock (s : State) {r : Reg} (hr : r ≠ .pins) : readReg (resetBlock s) r = 0 := by
  cases r with
  | pins => exact absurd rfl hr
  | spPhase => exact phaseWord_reset
  | encSnap => exact snapWord_empty
  | evt => exact evtWord_none
  | _ => rfl

/-- Settles O51: the RD returns the word of the register its offset names, which is not PINS. -/
theorem registersReadZeroAfterReset : Obligations.RegistersReadZeroAfterReset := by
  intro s t u off hreset hread hoff
  cases hreset
  obtain ⟨r, rfl, rfl⟩ := execRd_next hread
  have notPins : r ≠ .pins := by
    rintro rfl
    exact hoff rfl
  exact congrArg some (readReg_resetBlock s notPins)

end Sys2Proof.Machine
end

section
/-! PROOFS. The register window (spec/20_memory.md): which offsets RD and WR admit and that every well-formed
instruction completes, what a read leaves alone, the implemented bits of each register, and runs of admitted records. -/

namespace Sys2Proof.Machine

/-! ## Admitted offsets -/

/-- R73's condition in numbers. -/
theorem offsetAdmitted_iff (off : Offset) : offsetAdmitted off = true ↔ off.toNat % 4 = 0 ∧ off.toNat < 0x40 := by
  rw [offsetAdmitted, Bool.and_eq_true, decide_eq_true_eq, decide_eq_true_eq, Config.windowBytes]

/-- An admitted offset is the offset of a register. -/
theorem exists_regOffset_of_admitted {off : Offset} (h : offsetAdmitted off = true) : ∃ r, off = regOffset r := by
  rw [← regOfOffset_isSome, Option.isSome_iff_exists] at h
  obtain ⟨r, hr⟩ := h
  exact ⟨r, regOfOffset_eq_some.mp hr⟩

theorem regOfOffset_eq_none_of_not_admitted {off : Offset} (h : ¬ offsetAdmitted off = true) :
    regOfOffset off = none := by
  rwa [← regOfOffset_isSome, Option.not_isSome_iff_eq_none] at h

theorem execRd_refused {off : Offset} (h : ¬ offsetAdmitted off = true) (s : State) :
    execRd off s = .refused (.inadmissibleOffset off) := by
  rw [execRd, regOfOffset_eq_none_of_not_admitted h]

theorem execWr_refused {off : Offset} (h : ¬ offsetAdmitted off = true) (v : Word) (s : State) :
    execWr off v s = .refused (.inadmissibleOffset off) := by
  rw [execWr, regOfOffset_eq_none_of_not_admitted h]

/-! ## Completion -/

/-- Settles O8: RD and WR reach the register that their admitted offset names; every other meaning is a next state as
it stands. -/
theorem wellFormedInstructionsComplete : Obligations.WellFormedInstructionsComplete := by
  intro i s h
  cases i with
  | rd off =>
    obtain ⟨r, rfl⟩ := exists_regOffset_of_admitted h
    exact ⟨_, execRd_regOffset r s⟩
  | wr off v =>
    obtain ⟨r, rfl⟩ := exists_regOffset_of_admitted h
    exact ⟨_, execWr_regOffset r v s⟩
  | _ => exact ⟨_, rfl⟩

/-- Settles O11: an offset that is not admitted names no register; at an admitted one RD and WR are well-formed. -/
theorem inadmissibleOffsetsAreRefused : Obligations.InadmissibleOffsetsAreRefused := by
  intro s off v
  constructor
  · intro hbad
    have notAdmitted : ¬ offsetAdmitted off = true := by
      rw [offsetAdmitted_iff]
      omega
    exact ⟨execRd_refused notAdmitted s, execWr_refused notAdmitted v s⟩
  · intro hgood
    have admitted : offsetAdmitted off = true := (offsetAdmitted_iff off).mpr hgood
    exact ⟨wellFormedInstructionsComplete (.rd off) s admitted,
      wellFormedInstructionsComplete (.wr off v) s admitted⟩

/-! ## Reads -/

/-- No register shows the value that the last step returned (log entry 3). -/
theorem readReg_readData (s : State) (x : Option Word) (r : Reg) :
    readReg { s with readData := x } r = readReg s r := by
  cases r <;> rfl

/-- Settles O10: an RD writes the returned value alone, and no register shows that value to the second RD. -/
theorem readsHaveNoSideEffect : Obligations.ReadsHaveNoSideEffect := by
  intro s t off h
  obtain ⟨r, rfl, rfl⟩ := execRd_next h
  refine ⟨rfl, ?_⟩
  have second := execRd_regOffset r { s with readData := some (readReg s r) }
  rwa [readReg_readData] at second

/-! ## Implemented bits -/

/-- The bits a register may read 1 in (spec/10_state.md section 3). -/
def readableBits : Reg → Word
  | .coreStatus | .cfg => 0x1
  | .time | .spFreq | .spOffset | .spFout | .spPll => 0xFFFFFFFF
  | .spStatus | .encSnap => 0x3
  | .spDiv => 0x3FF
  | .spPhase => 0x17F
  | .evt | .pins => 0x7
  | .cmd | .reserved38 | .reserved3C => 0

/-- The bits that a WR stores (spec/10_state.md section 3). -/
def storedBits : Reg → Word
  | .cfg => 0x1
  | .spFreq | .spOffset => 0xFFFFFFFF
  | _ => 0

/-- A register's offset, its readable bits and its stored bits. -/
def registerRow (r : Reg) : Offset × Word × Word := (regOffset r, readableBits r, storedBits r)

/-- Every register but CMD, in the order of the offsets. -/
def storageRegs : List Reg :=
  [.coreStatus, .cfg, .time, .spFreq, .spOffset, .spStatus, .spFout, .spPll, .spDiv, .spPhase, .encSnap, .evt, .pins,
   .reserved38, .reserved3C]

theorem ne_cmd_of_mem_storageRegs {r : Reg} (h : r ∈ storageRegs) : r ≠ .cmd := by
  rintro rfl
  exact absurd h (by decide)

/-- A field of `w` bits at the bottom of a word leaves the bits above it 0. -/
theorem setWidth_and_not_allOnes {w : Nat} (x : BitVec w) :
    x.setWidth 32 &&& ~~~(BitVec.allOnes w).setWidth 32 = 0 := by
  ext i hi
  by_cases hw : i < w
  · simp [hw]
  · simp [BitVec.getLsbD_of_ge x i (by omega)]

/-- SP_PHASE leaves bit 7 and the bits above CAPPED 0 (spec/10_state.md R45). -/
theorem phaseFields_and_not_mask : ∀ (capped : Bool) (steps : BitVec 7),
    (bit capped ++ (0 : BitVec 1) ++ steps).setWidth 32 &&& ~~~(0x17F : Word) = 0 := by
  decide

/-- Reserved bits read 0 (spec/20_memory.md R76). -/
theorem readReg_and_not_readableBits (s : State) (r : Reg) : readReg s r &&& ~~~readableBits r = 0 := by
  cases r with
  | cmd | reserved38 | reserved3C => exact BitVec.zero_and
  | time | spFreq | spOffset | spFout | spPll => exact BitVec.and_zero
  | coreStatus | cfg => exact setWidth_and_not_allOnes (bit _)
  | spStatus => exact setWidth_and_not_allOnes (lockCode s.lock)
  | spDiv => exact setWidth_and_not_allOnes s.plan.r
  | spPhase => exact phaseFields_and_not_mask s.plan.capped s.plan.steps
  | encSnap => exact setWidth_and_not_allOnes (bit _ ++ bit _)
  | evt | pins => exact setWidth_and_not_allOnes (bit _ ++ bit _ ++ bit _)

/-- A store depends on the stored bits alone (spec/20_memory.md R76). -/
theorem storeReg_congr {v v' : Word} {r : Reg} (h : v &&& storedBits r = v' &&& storedBits r) (s : State) :
    storeReg s v r = storeReg s v' r := by
  cases r with
  | cfg =>
    have bit0 : v.getLsbD 0 = v'.getLsbD 0 := by simpa [storedBits] using congrArg (·.getLsbD 0) h
    exact congrArg s.withDirInvert bit0
  | spFreq | spOffset =>
    have whole : v = v' := by simpa only [storedBits, Laws.data_mask] using h
    rw [whole]
  | _ => rfl

/-- Outside CMD a WR is a store. -/
theorem writeReg_of_ne_cmd {r : Reg} (hr : r ≠ .cmd) (s : State) (v : Word) : writeReg s v r = storeReg s v r :=
  if_neg hr

/-- Settles O14: the rows are those of the fifteen registers that start no command, and at each of them RD shows
readable bits only and WR uses stored bits only. -/
theorem reservedBitsReadZeroAndIgnoreWrites : Obligations.ReservedBitsReadZeroAndIgnoreWrites := by
  intro s row hrow
  obtain ⟨r, hr, rfl⟩ : ∃ r ∈ storageRegs, registerRow r = row := List.mem_map.mp hrow
  refine ⟨⟨readReg s r, execRd_regOffset r s, readReg_and_not_readableBits s r⟩, fun v v' hv => ?_⟩
  have notCmd := ne_cmd_of_mem_storageRegs hr
  calc execWr (regOffset r) v s
      = .next (storeReg s v r) := by rw [execWr_regOffset, writeReg_of_ne_cmd notCmd]
    _ = .next (storeReg s v' r) := by rw [storeReg_congr hv]
    _ = execWr (regOffset r) v' s := by rw [execWr_regOffset, writeReg_of_ne_cmd notCmd]

/-! ## Runs of admitted records -/

theorem decodeBare_eq_ok {off : Offset} {data : Word} {i j : Instr} (h : decodeBare off data i = .ok j) : j = i := by
  unfold decodeBare at h
  split at h
  · cases h
  · split at h <;> cases h
    rfl

theorem decodeLevel_eq_ok {off : Offset} {data : Word} {f : Bool → Instr} {j : Instr}
    (h : decodeLevel off data f = .ok j) : j = f (data.getLsbD 0) := by
  unfold decodeLevel at h
  split at h
  · cases h
  · split at h <;> cases h
    rfl

/-- The decoder gives well-formed instructions only: it is the decoder that refuses the offsets R73 does not admit
(spec/30_encoding.md R95). -/
theorem wellFormed_of_decodeRecord {r : Record} {i : Instr} (h : decodeRecord r = .ok i) : i.wellFormed = true := by
  unfold decodeRecord at h
  split at h
  · cases h
  · dsimp only at h
    split at h
    case h_1 =>
      split at h
      · cases h
      · rename_i admitted
        split at h <;> cases h
        simpa [Instr.wellFormed] using admitted
    case h_2 =>
      split at h <;> cases h
      rename_i admitted
      simpa [Instr.wellFormed] using admitted
    case h_3 | h_8 => rw [decodeBare_eq_ok h]; rfl
    case h_4 | h_5 | h_6 => rw [decodeLevel_eq_ok h]; rfl
    case h_7 => split at h <;> cases h; rfl
    case h_9 => cases h

/-- No instruction touches the schedule, RESET included (log entry 2). -/
theorem Effect.schedule_eq {s t : State} {i : Instr} (e : Effect s i t) : t.schedule = s.schedule := by
  cases e <;> rfl

/-- A step on an admitted record leads to a state that has the rest of the run still to take. -/
theorem step_of_decodeRecord {s : State} {r : Record} {rest : List Record} {i : Instr} (hs : s.schedule = r :: rest)
    (hr : decodeRecord r = .ok i) : ∃ t, step s = .next t ∧ t.schedule = rest := by
  obtain ⟨t, ht⟩ := wellFormedInstructionsComplete i (s.afterFetch rest) (wellFormed_of_decodeRecord hr)
  exact ⟨t, by simp only [step, hs, hr, ht], (effect_of_exec ht).schedule_eq⟩

/-- From every state that meets the invariant, a schedule of admitted records is taken to its end. -/
theorem runSchedule_of_admitted {run : List Record} (hrun : ∀ r ∈ run, ∃ i, decodeRecord r = .ok i) {s : State}
    (hs : s.schedule = run) (hinv : s.Inv) :
    ∃ t, runSchedule run.length s = .next t ∧ t.schedule = [] ∧ t.Inv := by
  induction run generalizing s with
  | nil => exact ⟨s, rfl, hs, hinv⟩
  | cons r rest ih =>
    obtain ⟨⟨i, hi⟩, hrest⟩ := List.forall_mem_cons.mp hrun
    obtain ⟨u, hstep, hu⟩ := step_of_decodeRecord hs hi
    simpa only [List.length_cons, runSchedule, hstep] using ih hrest hu (stepKeepsInvariant s u hinv hstep)

/-- A launch state is one that RESET leads to: RESET leaves it as it is. -/
theorem resetBlock_launch (lines : Lines) (run : List Record) :
    resetBlock (State.launch lines run) = State.launch lines run := rfl

theorem launch_inv (lines : Lines) (run : List Record) : (State.launch lines run).Inv :=
  resetBlock_launch lines run ▸ resetBlock_inv (State.launch lines run)

/-- Settles O54, by induction on the run: every record steps, and every step keeps the invariant. -/
theorem admittedRunsComplete : Obligations.AdmittedRunsComplete := by
  intro lines run hrun
  exact runSchedule_of_admitted hrun rfl (launch_inv lines run)

end Sys2Proof.Machine
end

section
/-! PROOFS. The encoding (spec/30_encoding.md): the decoder and the encoder are inverse to each other in both formats,
the refused records are those of R95, and the step runs what an encoding stands for, an assembled line included. -/

namespace Sys2Proof

/-! ## The operands of a record -/

/-- A record without operands decodes exactly when both its fields are 0 (spec/30_encoding.md R95). -/
theorem decodeBare_eq_ok_iff {off : Offset} {data : Word} {i j : Instr} :
    decodeBare off data i = .ok j ↔ off = 0 ∧ data = 0 ∧ i = j := by
  unfold decodeBare
  split_ifs with hoff hdata <;> simp_all

/-- No DATA bit but bit 0 is set (spec/30_encoding.md R95), as a number. -/
theorem unusedLevelData_eq_zero_iff (data : Word) : data.extractLsb' 1 31 = 0 ↔ data.toNat / 2 = 0 := by
  have := data.isLt
  rw [← BitVec.toNat_inj, BitVec.extractLsb'_toNat, Nat.shiftRight_eq_div_pow]
  simp only [BitVec.ofNat_eq_ofNat, BitVec.toNat_ofNat]
  omega

/-- A DATA field that uses bit 0 alone is the DATA of a level (spec/30_encoding.md R97). -/
theorem levelData_getLsbD {data : Word} (h : data.extractLsb' 1 31 = 0) : levelData (data.getLsbD 0) = data := by
  rw [unusedLevelData_eq_zero_iff] at h
  have small : data = 0 ∨ data = 1 := by
    simp only [← BitVec.toNat_inj, BitVec.ofNat_eq_ofNat, BitVec.toNat_ofNat]
    omega
  rcases small with rfl | rfl <;> rfl

/-- A SET_* record decodes exactly when its DATA is that of a level (spec/30_encoding.md R95, R97). -/
theorem decodeLevel_eq_ok_iff {off : Offset} {data : Word} {f : Bool → Instr} {j : Instr} :
    decodeLevel off data f = .ok j ↔ off = 0 ∧ ∃ level, levelData level = data ∧ f level = j := by
  unfold decodeLevel
  split_ifs with hoff hdata
  · simp only [hoff, false_and]
  · constructor
    · nofun
    · rintro ⟨_, level, rfl, _⟩
      exact absurd (levelData_unused level) hdata
  · have hdata := levelData_getLsbD (not_not.mp hdata)
    constructor
    · intro h
      exact ⟨not_not.mp hoff, data.getLsbD 0, hdata, Except.ok.inj h⟩
    · rintro ⟨_, level, rfl, rfl⟩
      simp

/-! ## Decoding is the inverse of encoding -/

/-- A record with RSV = 0 is what its KIND and its operands are packed to (spec/30_encoding.md R94). -/
theorem packRecord_eq_of_fields {r : Record} {k : BitVec 4} {off : Offset} {data : Word} (hrsv : recordRsv r = 0)
    (hoff : recordOffset r = off) (hdata : recordData r = data) (hk : (recordKind r).toNat = k.toNat) :
    packRecord k 0 off data = r := by
  rw [← BitVec.eq_of_toNat_eq hk, ← hrsv, ← hoff, ← hdata]
  exact packRecord_fields r

/-- A record that decodes is the encoding of the instruction it decodes to: in each kind the checks passed leave the
operands alone to be packed again. -/
theorem encode_of_decodeRecord {r : Record} {i : Instr} (h : decodeRecord r = .ok i) : encode i = .record r := by
  unfold decodeRecord at h
  split at h
  · cases h
  rename_i hrsv
  rw [not_not] at hrsv
  dsimp only at h
  split at h <;> rename_i hk
  case h_1 =>
    split_ifs at h with _ hdata
    cases h
    refine congrArg Encoding.record (packRecord_eq_of_fields hrsv rfl (not_not.mp hdata) ?_)
    exact hk
  case h_2 =>
    split_ifs at h
    cases h
    refine congrArg Encoding.record (packRecord_eq_of_fields hrsv rfl rfl ?_)
    exact hk
  case h_3 | h_8 =>
    obtain ⟨hoff, hdata, rfl⟩ := decodeBare_eq_ok_iff.mp h
    refine congrArg Encoding.record (packRecord_eq_of_fields hrsv hoff hdata ?_)
    exact hk
  case h_4 | h_5 | h_6 =>
    obtain ⟨hoff, level, hdata, rfl⟩ := decodeLevel_eq_ok_iff.mp h
    refine congrArg Encoding.record (packRecord_eq_of_fields hrsv hoff hdata.symm ?_)
    exact hk
  case h_7 =>
    split_ifs at h with hoff
    cases h
    refine congrArg Encoding.record (packRecord_eq_of_fields hrsv (not_not.mp hoff) rfl ?_)
    exact hk
  case h_9 => cases h

/-- A command word that decodes is the encoding of the command it decodes to. -/
theorem encode_of_decodeCommand {w : Word} {i : Instr} (h : decodeCommand w = .ok i) : encode i = .command w := by
  unfold decodeCommand at h
  split at h <;> cases h
  all_goals exact congrArg Encoding.command (BitVec.eq_of_toNat_eq (Eq.symm ‹_›))

/-- A command has no operand to be ill-formed. -/
theorem wellFormed_of_decodeCommand {w : Word} {i : Instr} (h : decodeCommand w = .ok i) : i.wellFormed = true := by
  unfold decodeCommand at h
  split at h <;> cases h <;> rfl

/-- Settles O5: the fields of a packed record are the ones it was packed from, and each kind's check passes on them. -/
theorem decodeOfEncodeIsInstruction : Obligations.DecodeOfEncodeIsInstruction := by
  intro i h
  cases i with
  | rd off | wr off =>
    have admitted : offsetAdmitted off = true := h
    simp [encode, decode, decodeRecord, admitted]
  | edgeA | reset => rfl
  | advance d => simp [encode, decode, decodeRecord]
  | setEncb level | setBtn level | setMode level =>
    simpa [encode, decode, decodeRecord] using decodeLevel_eq_ok_iff.mpr ⟨rfl, level, rfl, rfl⟩
  | nop | plan | sample | encTake => rfl

/-- Settles O6: in each format, what decodes is the encoding of what it decodes to. -/
theorem encodeOfDecodeIsEncoding : Obligations.EncodeOfDecodeIsEncoding := by
  intro e i h
  cases e with
  | record r => exact ⟨encode_of_decodeRecord h, Machine.wellFormed_of_decodeRecord h⟩
  | command w => exact ⟨encode_of_decodeCommand h, wellFormed_of_decodeCommand h⟩

/-- Settles O7: each record evaluates. -/
theorem workedEncodingsDecode : Obligations.WorkedEncodingsDecode :=
  ⟨rfl, rfl, rfl, rfl, rfl, rfl, rfl, rfl⟩

/-! ## The refused records in numbers (spec/30_encoding.md R94, R95) -/

theorem recordKind_toNat (r : Record) : (recordKind r).toNat = r.toNat / 2 ^ 44 := by
  have := r.isLt
  rw [recordKind, BitVec.extractLsb'_toNat, Nat.shiftRight_eq_div_pow]
  omega

theorem recordRsv_toNat (r : Record) : (recordRsv r).toNat = r.toNat / 2 ^ 40 % 16 := by
  rw [recordRsv, BitVec.extractLsb'_toNat, Nat.shiftRight_eq_div_pow]

theorem recordOffset_toNat (r : Record) : (recordOffset r).toNat = r.toNat / 2 ^ 32 % 256 := by
  rw [recordOffset, BitVec.extractLsb'_toNat, Nat.shiftRight_eq_div_pow]

theorem recordData_toNat (r : Record) : (recordData r).toNat = r.toNat % 2 ^ 32 := by
  rw [recordData, BitVec.extractLsb'_toNat, Nat.shiftRight_zero]

theorem ne_zero_iff_toNat {w : Nat} (x : BitVec w) : x ≠ 0 ↔ x.toNat ≠ 0 := by
  rw [Ne, ← BitVec.toNat_inj]
  rfl

/-- R73's offsets that RD and WR do not have. -/
theorem not_offsetAdmitted_iff (off : Offset) :
    (!offsetAdmitted off) = true ↔ off.toNat % 4 ≠ 0 ∨ 0x40 ≤ off.toNat := by
  rw [Bool.not_eq_true', ← Bool.not_eq_true, Machine.offsetAdmitted_iff]
  omega

/-- The decoder's checks one after another: the first that fails refuses. -/
theorem refuses_ite_iff {c : Prop} [Decidable c] (e : DecodeError) (rest : Except DecodeError Instr) :
    (∃ e', (if c then .error e else rest) = .error e') ↔ c ∨ ∃ e', rest = .error e' := by
  split_ifs with hc <;> simp [hc]

theorem not_refuses_ok (i : Instr) : ¬ ∃ e : DecodeError, Except.ok i = .error e := nofun

theorem decodeBare_refuses_iff (off : Offset) (data : Word) (i : Instr) :
    (∃ e, decodeBare off data i = .error e) ↔ off.toNat ≠ 0 ∨ data.toNat ≠ 0 := by
  simp only [decodeBare, refuses_ite_iff, not_refuses_ok, or_false, ne_zero_iff_toNat]

theorem decodeLevel_refuses_iff (off : Offset) (data : Word) (f : Bool → Instr) :
    (∃ e, decodeLevel off data f = .error e) ↔ off.toNat ≠ 0 ∨ data.toNat / 2 ≠ 0 := by
  simp only [decodeLevel, refuses_ite_iff, not_refuses_ok, or_false, ne_zero_iff_toNat off,
    (unusedLevelData_eq_zero_iff data).ne]

/-- R95's list of refused records, over the fields of R94 as numbers. -/
def RefusedFields (kind rsv off data : Nat) : Prop :=
  8 ≤ kind ∨ rsv ≠ 0 ∨
  ((kind = 0 ∨ kind = 1) ∧ (off % 4 ≠ 0 ∨ 0x40 ≤ off)) ∨
  (kind = 0 ∧ data ≠ 0) ∨
  ((kind = 2 ∨ kind = 7) ∧ (off ≠ 0 ∨ data ≠ 0)) ∨
  ((kind = 3 ∨ kind = 4 ∨ kind = 5) ∧ (off ≠ 0 ∨ data / 2 ≠ 0)) ∨
  (kind = 6 ∧ off ≠ 0)

/-- The decoder refuses exactly the records of R95's list. -/
theorem decodeRecord_refuses_iff (r : Record) :
    (∃ e, decodeRecord r = .error e) ↔
      RefusedFields (recordKind r).toNat (recordRsv r).toNat (recordOffset r).toNat (recordData r).toNat := by
  rw [decodeRecord, refuses_ite_iff, ne_zero_iff_toNat, RefusedFields, or_left_comm]
  refine or_congr_right ?_
  dsimp only
  split <;> rename_i hk
  case h_1 | h_2 | h_7 =>
    simp only [refuses_ite_iff, not_refuses_ok, not_offsetAdmitted_iff, ne_zero_iff_toNat]
    simp [hk]
  case h_3 | h_8 =>
    rw [decodeBare_refuses_iff, hk]
    omega
  case h_4 | h_5 | h_6 =>
    rw [decodeLevel_refuses_iff, hk]
    omega
  case h_9 =>
    refine iff_of_true ⟨_, rfl⟩ (.inl ?_)
    simp only [imp_false] at *
    omega

namespace Machine

/-! ## The step runs what an encoding stands for -/

/-- The step on a record is the meaning of the instruction it decodes to (spec/30_encoding.md R94). -/
theorem step_eq_exec {s : State} {r : Record} {rest : List Record} {i : Instr} (hs : s.schedule = r :: rest)
    (hr : decodeRecord r = .ok i) : step s = exec i (s.afterFetch rest) := by
  simp only [step, hs, hr]

/-- A WR of a legal command word to CMD has the command's meaning (spec/40_register_access.md R113). -/
theorem exec_wr_cmd_of_decodeCommand {w : Word} {c : Instr} (h : decodeCommand w = .ok c) (s : State) :
    exec (.wr 0 w) s = exec c s := by
  have henc := encode_of_decodeCommand h
  cases c with
  | nop | plan | sample | encTake =>
    cases henc
    rfl
  | _ => cases henc

/-- Either format runs: a record as it stands, a command word as the data of a WR to CMD (spec/30_encoding.md R90). -/
theorem step_carryingRecord {s : State} {e : Encoding} {rest : List Record} {i : Instr}
    (hs : s.schedule = carryingRecord e :: rest) (he : decode e = .ok i) : step s = exec i (s.afterFetch rest) := by
  cases e with
  | record r => exact step_eq_exec hs he
  | command w =>
    rw [step_eq_exec hs (decodeOfEncodeIsInstruction (.wr 0 w) rfl)]
    exact exec_wr_cmd_of_decodeCommand he _

/-- Settles O1: the fetch is the statement's record update. -/
theorem stepRunsDecodedInstruction : Obligations.StepRunsDecodedInstruction :=
  fun _ _ _ _ hs hr => step_eq_exec hs hr

/-- Settles O2: the record that carries a command word runs the command. -/
theorem stepRunsIssuedCommand : Obligations.StepRunsIssuedCommand :=
  fun _ _ _ _ hs hw => step_carryingRecord (e := .command _) hs hw

/-- A table word that decodes is an encoding of one of the two formats, and its record carries that encoding
(log entry 8). -/
theorem decodeTableWord_eq_some {nbits w : Nat} {i : Instr} (h : decodeTableWord nbits w = some i) :
    ∃ e, tableRecord nbits w = carryingRecord e ∧ decode e = .ok i := by
  obtain ⟨e, he, hi⟩ := Option.bind_eq_some_iff.mp h
  refine ⟨e, by simp [tableRecord, he], ?_⟩
  cases hd : decode e with
  | ok j => rw [hd] at hi; exact congrArg _ (Option.some.inj hi)
  | error x => rw [hd] at hi; cases hi

/-- Settles O3: the record put at the head of the schedule carries the table word's encoding, and taking it leaves the
schedule as it was. -/
theorem fetchWordRunsNext : Obligations.FetchWordRunsNext := by
  intro s nbits w i h
  obtain ⟨e, hrecord, hdecode⟩ := decodeTableWord_eq_some h
  have hs : (s.withFetchWord nbits w).schedule = carryingRecord e :: s.schedule := by
    rw [← hrecord]
    rfl
  exact step_carryingRecord hs hdecode

/-! ## Admitted and refused records -/

/-- The encoding of a well-formed instruction matches its own row alone (spec/30_encoding.md R95, R96). -/
theorem matchedMnemonics_encode (i : Instr) : Laws.EncodingMatchesRow.Statement i := by
  cases i with
  | rd off => exact Laws.EncodingMatchesRow.rd off
  | wr off v => exact Laws.EncodingMatchesRow.wr off v
  | edgeA => exact Laws.EncodingMatchesRow.edgeA
  | setEncb level => exact Laws.EncodingMatchesRow.setEncb level
  | setBtn level => exact Laws.EncodingMatchesRow.setBtn level
  | setMode level => exact Laws.EncodingMatchesRow.setMode level
  | advance d => exact Laws.EncodingMatchesRow.advance d
  | reset => exact Laws.EncodingMatchesRow.reset
  | nop => exact Laws.EncodingMatchesRow.nop
  | plan => exact Laws.EncodingMatchesRow.plan
  | sample => exact Laws.EncodingMatchesRow.sample
  | encTake => exact Laws.EncodingMatchesRow.encTake

/-- A record that decodes matches the row of its instruction and no other. -/
theorem matchingRows_of_decodeRecord {r : Record} {i : Instr} (h : decodeRecord r = .ok i) :
    matchingRows r = [i.mnemonic] := by
  have hrow := matchedMnemonics_encode i (wellFormed_of_decodeRecord h)
  rwa [encode_of_decodeRecord h] at hrow

/-- A DATA field that is 0 under the mask of the SET_* rows is the DATA of a level (spec/30_encoding.md R96, R97). -/
theorem exists_levelData_of_mask {data : Word} (h : data &&& 0xFFFFFFFE = 0) : ∃ level, levelData level = data := by
  refine ⟨_, levelData_getLsbD ?_⟩
  have high := congrArg (BitVec.extractLsb' 1 31) h
  rw [BitVec.extractLsb'_and] at high
  exact (BitVec.and_allOnes).symm.trans high

/-- A record that matches a row is the encoding of an instruction of that row. -/
theorem exists_encode_of_rowMatches {r : Record} {row : String × Record × Record} (hrow : row ∈ recordRows)
    (hr : rowMatches r row = true) : ∃ i : Instr, i.wellFormed = true ∧ encode i = .record r := by
  have whole (off : Offset) : off &&& 0xFF = off := BitVec.and_allOnes
  rw [← packRecord_fields r] at hr ⊢
  generalize recordKind r = k, recordRsv r = rsv, recordOffset r = off, recordData r = data at *
  simp only [Laws.recordRows_eq, List.mem_cons, List.not_mem_nil, or_false] at hrow
  rcases hrow with rfl | rfl | rfl | rfl | rfl | rfl | rfl | rfl <;>
    simp only [Laws.rowMatches_packRecord, decide_eq_true_eq, Laws.kind_mask, Laws.data_mask, whole] at hr <;>
    obtain ⟨rfl, rfl, hoff, hdata⟩ := hr
  · exact ⟨.rd off, (Laws.offset_mask off).mp hoff, by rw [hdata]; rfl⟩
  · exact ⟨.wr off data, (Laws.offset_mask off).mp hoff, rfl⟩
  · exact ⟨.edgeA, rfl, by rw [hoff, hdata]; rfl⟩
  · obtain ⟨level, rfl⟩ := exists_levelData_of_mask hdata
    exact ⟨.setEncb level, rfl, by rw [hoff]; rfl⟩
  · obtain ⟨level, rfl⟩ := exists_levelData_of_mask hdata
    exact ⟨.setBtn level, rfl, by rw [hoff]; rfl⟩
  · obtain ⟨level, rfl⟩ := exists_levelData_of_mask hdata
    exact ⟨.setMode level, rfl, by rw [hoff]; rfl⟩
  · exact ⟨.advance data, rfl, by rw [hoff]; rfl⟩
  · exact ⟨.reset, rfl, by rw [hoff, hdata]; rfl⟩

/-- A record decodes exactly when it matches one row of the map (spec/30_encoding.md R95). -/
theorem decodes_iff_matches_one_row (r : Record) : (∃ i, decodeRecord r = .ok i) ↔ (matchingRows r).length = 1 := by
  constructor
  · rintro ⟨i, hi⟩
    rw [matchingRows_of_decodeRecord hi, List.length_singleton]
  · intro hone
    obtain ⟨_, hname⟩ := List.exists_mem_of_length_pos (l := matchingRows r) (by omega)
    obtain ⟨row, hrow, _⟩ := List.mem_map.mp hname
    obtain ⟨hmem, hmatch⟩ := List.mem_filter.mp hrow
    obtain ⟨i, hi, henc⟩ := exists_encode_of_rowMatches hmem hmatch
    have hdecode := decodeOfEncodeIsInstruction i hi
    rw [henc] at hdecode
    exact ⟨i, hdecode⟩

/-- The step refuses a record by the name the decoder refuses it by, and no admitted record. -/
theorem step_refuses_iff {s : State} {r : Record} {rest : List Record} (hs : s.schedule = r :: rest)
    (e : DecodeError) : step s = .refused (.inadmissibleRecord e) ↔ decodeRecord r = .error e := by
  cases hr : decodeRecord r with
  | ok i =>
    obtain ⟨t, ht, _⟩ := step_of_decodeRecord hs hr
    simp [ht]
  | error x => simp [step, hs, hr]

/-- Settles O4: a record steps exactly if it decodes, which is if it matches one row; the decoder refuses the
list. -/
theorem admittedRecordsStepOthersRefused : Obligations.AdmittedRecordsStepOthersRefused := by
  intro s r rest hs
  refine ⟨fun hone => ?_, fun hnot => ?_, ?_⟩
  · obtain ⟨i, hi⟩ := (decodes_iff_matches_one_row r).mpr hone
    obtain ⟨t, ht, _⟩ := step_of_decodeRecord hs hi
    exact ⟨t, ht⟩
  · cases hr : decodeRecord r with
    | ok i => exact absurd ((decodes_iff_matches_one_row r).mp ⟨i, hr⟩) hnot
    | error e => exact ⟨e, (step_refuses_iff hs e).mpr hr⟩
  · simp only [step_refuses_iff hs]
    rw [decodeRecord_refuses_iff, recordKind_toNat, recordRsv_toNat, recordOffset_toNat, recordData_toNat]
    exact Iff.rfl

/-! ## Assembled lines -/

/-- The records that bring instructions to the block. -/
def recordsOf (is : List Instr) : List Record := is.map fun i => carryingRecord (encode i)

theorem recordsOf_nil : recordsOf [] = [] := rfl

/-- The step on the record of an instruction is the instruction's meaning. -/
theorem step_recordsOf {s : State} {i : Instr} {is : List Instr} (hs : s.schedule = recordsOf (i :: is))
    (hi : i.wellFormed = true) : step s = exec i (s.afterFetch (recordsOf is)) :=
  step_carryingRecord hs (decodeOfEncodeIsInstruction i hi)

theorem runSchedule_one (s : State) : runSchedule 1 s = step s := by
  simp only [runSchedule]
  cases step s <;> rfl

/-- A run takes its first instruction's meaning, if that is a next state, and goes on from there. -/
theorem runSchedule_recordsOf {n : Nat} {s t : State} {i : Instr} {is : List Instr}
    (hs : s.schedule = recordsOf (i :: is)) (hi : i.wellFormed = true)
    (ht : exec i (s.afterFetch (recordsOf is)) = .next t) : runSchedule (n + 1) s = runSchedule n t := by
  rw [runSchedule, step_recordsOf hs hi, ht]

/-- A run that drives a line and samples it. -/
theorem runSchedule_then_sample {n : Nat} {s t : State} {i : Instr} {is : List Instr}
    (hs : s.schedule = recordsOf (i :: .sample :: is)) (hi : i.wellFormed = true)
    (ht : exec i (s.afterFetch (recordsOf (.sample :: is))) = .next t) :
    runSchedule (n + 2) s = runSchedule n (sampleStep (t.afterFetch (recordsOf is))) := by
  have hsample : t.schedule = recordsOf (.sample :: is) := (effect_of_exec ht).schedule_eq
  rw [runSchedule_recordsOf hs hi ht, runSchedule_recordsOf hsample rfl rfl]

theorem exec_wr_spFreq (v : Word) (s : State) : exec (.wr 0x10 v) s = .next { s with spFreq := v } := rfl

theorem exec_wr_spOffset (v : Word) (s : State) : exec (.wr 0x14 v) s = .next { s with spOffset := v } := rfl

/-- The instructions of `plan F, O`, its command as the command itself (spec/30_encoding.md R101). -/
def planWithInstrs (f o : Int) : List Instr :=
  [.wr 0x10 (BitVec.ofInt 32 f), .wr 0x14 (BitVec.ofInt 32 o), .plan]

theorem assemble_planWith (f o : Int) :
    assemble (expandPseudo (.planWith f o)) = some (recordsOf (planWithInstrs f o)) := rfl

/-- Settles O44: both stores complete, and the last step of the run is the PLAN. -/
theorem planPseudoPlansItsInputs : Obligations.PlanPseudoPlansItsInputs := by
  intro s f o
  refine ⟨_, assemble_planWith f o, ?_⟩
  rw [planWithInstrs, runSchedule_recordsOf rfl rfl (exec_wr_spFreq _ _),
    runSchedule_recordsOf rfl rfl (exec_wr_spOffset _ _), runSchedule_one, step_recordsOf rfl rfl]
  simp only [State.afterFetch, State.withSchedule, State.withReadData, recordsOf_nil]

/-! ## Clicks -/

/-- The instructions of `bclick` and `mclick`, their commands as the command itself (spec/30_encoding.md R101). -/
def clickInstrs (drive : Bool → Instr) : List Instr := [drive true, .sample, drive false, .sample]

theorem assemble_bclick : assemble (expandPseudo .bclick) = some (recordsOf (clickInstrs .setBtn)) := rfl

theorem assemble_mclick : assemble (expandPseudo .mclick) = some (recordsOf (clickInstrs .setMode)) := rfl

/-- A SAMPLE that sees the button active raises no click (spec/42_input_events.md R187). -/
theorem sampleStep_btnClick_of_active {s : State} (h : s.lines.btn = true) : (sampleStep s).evt.btnClick = false := by
  simp [sampleStep_eq, sampleEvents, sampleButton, buttonClick, h]

/-- A SAMPLE that sees the button released raises a click (spec/42_input_events.md R187). -/
theorem sampleStep_btnClick_of_release {s : State} (hprev : s.btnPrev = true) (h : s.lines.btn = false) :
    (sampleStep s).evt.btnClick = true := by
  simp [sampleStep_eq, sampleEvents, sampleButton, buttonClick, hprev, h]

/-- A SAMPLE that sees the mode pin active raises no mode event (spec/42_input_events.md R189, R190). -/
theorem sampleStep_modeEvents_of_active {s : State} (h : s.lines.mode = true) :
    ((sampleStep s).evt.modeSingle || (sampleStep s).evt.modeDouble) = false := by
  simp [sampleStep_eq, sampleEvents, modeSingle, modeDouble, modeRelease, h]

/-- A SAMPLE that sees the mode pin released raises one of the mode events (spec/42_input_events.md R190). -/
theorem sampleStep_modeEvents_of_release {s : State} (hprev : s.modePrev = true) (h : s.lines.mode = false) :
    ((sampleStep s).evt.modeSingle ^^ (sampleStep s).evt.modeDouble) = true := by
  simp [sampleStep_eq, sampleEvents, modeSingle, modeDouble, modeRelease, hprev, h]

/-- Settles O43: the first SAMPLE sees the line active, the second sees it inactive and remembers it active. -/
theorem clickPseudosRaiseAtSecondSample : Obligations.ClickPseudosRaiseAtSecondSample := by
  intro s lead
  constructor <;> intro h
  · obtain rfl : recordsOf (clickInstrs .setBtn) = lead := Option.some.inj (assemble_bclick.symm.trans h)
    exact ⟨_, _, runSchedule_then_sample rfl rfl rfl, sampleStep_btnClick_of_active rfl,
      (runSchedule_then_sample rfl rfl rfl).trans (runSchedule_then_sample rfl rfl rfl),
      sampleStep_btnClick_of_release rfl rfl, rfl⟩
  · obtain rfl : recordsOf (clickInstrs .setMode) = lead := Option.some.inj (assemble_mclick.symm.trans h)
    exact ⟨_, _, runSchedule_then_sample rfl rfl rfl, sampleStep_modeEvents_of_active rfl,
      (runSchedule_then_sample rfl rfl rfl).trans (runSchedule_then_sample rfl rfl rfl),
      sampleStep_modeEvents_of_release rfl rfl, rfl⟩

end Machine

end Sys2Proof
end

section
/-! PROOFS. Register access and command dispatch (spec/40_register_access.md): the word that RD returns for each
register, what WR stores and what a command word starts, and the effect of a stored CFG on the next edge. -/

namespace Sys2Proof.Machine

/-! ## The words of the registers' fields -/

/-- A one-bit register is 0 or 1. -/
theorem bit_setWidth (b : Bool) : (bit b).setWidth 32 = (if b then 1 else 0 : Word) := by
  cases b <;> rfl

/-- A one-bit register holds bit 0 of the word it is taken from. -/
theorem bit_getLsbD_zero_setWidth (v : Word) : (bit (v.getLsbD 0)).setWidth 32 = v &&& 1 := by
  ext i hi
  cases i <;> simp [bit]

/-- Two one-bit fields, the lower one named last (spec/10_state.md R46). -/
theorem twoBits_setWidth (hi lo : Bool) :
    (bit hi ++ bit lo).setWidth 32 = BitVec.ofNat 32 ((if lo then 1 else 0) + (if hi then 2 else 0)) := by
  cases hi <;> cases lo <;> rfl

/-- Three one-bit fields, the lowest one named last (spec/10_state.md R47, R48). -/
theorem threeBits_setWidth (hi mid lo : Bool) : (bit hi ++ bit mid ++ bit lo).setWidth 32 =
    BitVec.ofNat 32 ((if lo then 1 else 0) + (if mid then 2 else 0) + (if hi then 4 else 0)) := by
  cases hi <;> cases mid <;> cases lo <;> rfl

/-- SP_PHASE is STEPS, and 2^8 above it when CAPPED (spec/10_state.md R45). -/
theorem phaseFields_setWidth : ∀ (capped : Bool) (steps : BitVec 7),
    (bit capped ++ (0 : BitVec 1) ++ steps).setWidth 32 =
      BitVec.ofNat 32 (steps.toNat + (if capped then 2 ^ 8 else 0)) := by
  decide

theorem lockCode_setWidth (l : LockStatus) : (lockCode l).setWidth 32 =
    (match l with | .none => 0 | .locked => 1 | .phaseLimited => 2 | .noLock => 3 : Word) := by
  cases l <;> rfl

/-! ## Reads -/

/-- RD returns the word its register shows and changes nothing else (spec/40_register_access.md R110). -/
theorem exec_rd_of_readReg {s : State} {r : Reg} {w : Word} (h : readReg s r = w) :
    exec (.rd (regOffset r)) s = .next { s with readData := some w } :=
  h ▸ execRd_regOffset r s

/-- Settles O9: offset by offset, the register's word is the word of its fields; the record is the encoding of RD. -/
theorem rdReturnsRegisterFields : Obligations.RdReturnsRegisterFields := by
  intro s returns
  have reads (r : Reg) {w : Word} (h : readReg s r = w) : returns (regOffset r) w := exec_rd_of_readReg h
  refine ⟨reads .cmd rfl, reads .coreStatus ?_, reads .cfg ?_, reads .time rfl, reads .spFreq rfl,
    reads .spOffset rfl, reads .spStatus ?_, reads .spFout rfl, reads .spPll rfl, reads .spDiv ?_, reads .spPhase ?_,
    reads .encSnap ?_, reads .evt ?_, reads .pins ?_, reads .reserved38 rfl, reads .reserved3C rfl, ?_⟩
  · exact bit_setWidth s.illCmd
  · exact bit_setWidth s.dirInvert
  · exact lockCode_setWidth s.lock
  · exact (BitVec.ofNat_toNat 32 s.plan.r).symm
  · exact phaseFields_setWidth s.plan.capped s.plan.steps
  · exact twoBits_setWidth s.snap.dir s.snap.pending
  · exact threeBits_setWidth s.evt.modeDouble s.evt.modeSingle s.evt.btnClick
  · exact threeBits_setWidth s.lines.encb s.lines.mode s.lines.btn
  · intro off aligned inside
    exact decodeOfEncodeIsInstruction (.rd off) ((offsetAdmitted_iff off).mpr ⟨aligned, inside⟩)

/-! ## Commands -/

/-- A command word outside the map sets ILL_CMD and nothing else (spec/40_register_access.md R118). -/
theorem exec_wr_cmd_of_illegal {v : Word} (hv : 4 ≤ v.toNat) (s : State) :
    exec (.wr 0x00 v) s = .next { s with illCmd := true } := by
  have issued : issueCommand v s = { s with illCmd := true } := by
    rcases issueCommand_cases v s with ⟨rfl, _⟩ | ⟨rfl, _⟩ | ⟨rfl, _⟩ | ⟨rfl, _⟩ | ⟨_, h⟩
    case inr.inr.inr.inr => exact h
    all_goals exact absurd hv (by decide)
  exact congrArg Host.Outcome.next issued

/-- Settles O13: either word has the effect of every illegal command, and setting the bit again changes nothing. -/
theorem illegalCommandOnlySetsStickyBit : Obligations.IllegalCommandOnlySetsStickyBit := by
  intro s v w hv hw
  exact ⟨_, exec_wr_cmd_of_illegal hv s, rfl, exec_wr_cmd_of_illegal hw s, exec_wr_cmd_of_illegal hw _⟩

/-- Settles O16: the WR of the command word 0 is NOP, which leaves the state. -/
theorem nopChangesNothing : Obligations.NopChangesNothing :=
  ⟨rfl, rfl, fun s => ⟨rfl, exec_wr_cmd_of_decodeCommand (c := .nop) rfl s⟩⟩

/-! ## Stores -/

/-- The registers that store nothing and start nothing (spec/40_register_access.md R112). -/
def readOnlyRegs : List Reg := storageRegs.filter (storedBits · = 0)

/-- Outside CMD the meaning of WR is the store (spec/40_register_access.md R112). -/
theorem exec_wr_of_ne_cmd {r : Reg} (hr : r ≠ .cmd) (s : State) (v : Word) :
    exec (.wr (regOffset r) v) s = .next (storeReg s v r) := by
  rw [← writeReg_of_ne_cmd hr]
  exact execWr_regOffset r v s

/-- A WR to a read-only register has no effect (spec/20_memory.md R76). -/
theorem exec_wr_of_mem_readOnlyRegs {r : Reg} (hr : r ∈ readOnlyRegs) (s : State) (v : Word) :
    exec (.wr (regOffset r) v) s = .next s := by
  obtain ⟨hmem, hbits⟩ := List.mem_filter.mp hr
  have unchanged : storeReg s v r = s := by
    rcases storeReg_cases s v r with ⟨rfl, _⟩ | ⟨rfl, _⟩ | ⟨rfl, _⟩ | h
    case inr.inr.inr => exact h
    all_goals exact absurd hbits (by decide)
  rw [exec_wr_of_ne_cmd (ne_cmd_of_mem_storageRegs hmem), unchanged]

theorem exec_wr_cfg (v : Word) (s : State) : exec (.wr 0x08 v) s = .next { s with dirInvert := v.getLsbD 0 } := rfl

/-- Settles O12: a legal word is its command, the words left are illegal; the twelve offsets are those of the read-only
registers; the record is the encoding of WR. -/
theorem wrStoresOrStartsCommand : Obligations.WrStoresOrStartsCommand := by
  intro s v
  refine ⟨exec_wr_cmd_of_decodeCommand rfl s, exec_wr_cmd_of_decodeCommand rfl s, exec_wr_cmd_of_decodeCommand rfl s,
    exec_wr_cmd_of_decodeCommand rfl s, fun outside => ?_, exec_wr_cfg v s, exec_wr_spFreq v s, exec_wr_spOffset v s,
    fun off hoff => ?_, fun off aligned inside => ?_⟩
  · exact exec_wr_cmd_of_illegal (by bv_omega) s
  · obtain ⟨r, hr, rfl⟩ : ∃ r ∈ readOnlyRegs, regOffset r = off := List.mem_map.mp hoff
    exact exec_wr_of_mem_readOnlyRegs hr s v
  · exact decodeOfEncodeIsInstruction (.wr off v) ((offsetAdmitted_iff off).mpr ⟨aligned, inside⟩)

/-- A register that stores bits shows the ones written to it (spec/20_memory.md R72). -/
theorem readReg_storeReg {r : Reg} (hr : storedBits r ≠ 0) (s : State) (v : Word) :
    readReg (storeReg s v r) r = v &&& storedBits r := by
  cases r with
  | cfg => exact bit_getLsbD_zero_setWidth v
  | spFreq | spOffset => exact (Laws.data_mask v).symm
  | _ => exact absurd rfl hr

/-- RD right after a WR returns the written word's stored bits. -/
theorem exec_rd_after_wr {r : Reg} (hr : storedBits r ≠ 0) {s t : State} {v : Word}
    (h : exec (.wr (regOffset r) v) s = .next t) :
    exec (.rd (regOffset r)) t = .next { t with readData := some (v &&& storedBits r) } := by
  have notCmd : r ≠ .cmd := by
    rintro rfl
    exact hr rfl
  rw [exec_wr_of_ne_cmd notCmd] at h
  cases h
  exact exec_rd_of_readReg (readReg_storeReg hr s v)

/-- Settles O15: SP_FREQ and SP_OFFSET store every bit, CFG stores bit 0. -/
theorem writtenInputsReadBack : Obligations.WrittenInputsReadBack := by
  intro s t v
  refine ⟨fun h => ?_, fun h => ?_, fun h => ?_⟩
  · have read := exec_rd_after_wr (r := .spFreq) (by decide) h
    rwa [storedBits, Laws.data_mask] at read
  · have read := exec_rd_after_wr (r := .spOffset) (by decide) h
    rwa [storedBits, Laws.data_mask] at read
  · exact exec_rd_after_wr (r := .cfg) (by decide) h

/-! ## The direction sense -/

/-- When an edge is accepted, in natural numbers (spec/42_input_events.md R173). -/
theorem edgeAccepted_iff (enc : Reference) (now : Word) : edgeAccepted enc now = true ↔
    enc.valid = false ∨ 500 ≤ (now.toNat + 2 ^ 32 - enc.last.toNat) % 2 ^ 32 := by
  rw [edgeAccepted, elapsed_eq_elapsedUs, Bool.or_eq_true, Bool.not_eq_true', decide_eq_true_eq]
  rfl

/-- An accepted edge records the direction (spec/42_input_events.md R174). -/
theorem edgeStep_mbox_of_accepted {s : State} (h : edgeAccepted s.enc s.time = true) :
    (edgeStep s).mbox = ⟨true, s.lines.encb ^^ s.dirInvert⟩ := by
  rcases edgeStep_cases s with ⟨_, recorded⟩ | ⟨rejected, _⟩
  · exact congrArg State.mbox recorded
  · exact absurd (h.symm.trans rejected) Bool.noConfusion

/-- Settles O38: the WR writes the direction sense alone, so the edge sees the reference, TIME and ENCB from before it
and the bit that it wrote. -/
theorem directionSenseActsOnLaterEdges : Obligations.DirectionSenseActsOnLaterEdges := by
  intro s t u v hwr hedge
  rw [exec_wr_cfg] at hwr
  cases hwr
  cases hedge
  exact ⟨rfl, rfl, fun accepted => edgeStep_mbox_of_accepted ((edgeAccepted_iff _ _).mpr accepted)⟩

end Sys2Proof.Machine
end

section
/-! PROOFS. The two units do not interfere (spec/41_synthesis.md R147, spec/42_input_events.md R170): what each unit
holds after a step is a function of what it held before, and so over every run. -/

namespace Sys2Proof.Machine

/-! ## What each unit holds -/

/-- The state with everything but the planner at its reset value (spec/10_state.md R39 to R45). -/
def State.planner (s : State) : State :=
  { State.reset with spFreq := s.spFreq, spOffset := s.spOffset, lock := s.lock, plan := s.plan }

/-- The state with everything but the input event decoder at its reset value (spec/10_state.md R30, R37, R38, R46 to
R54). -/
def State.decoder (s : State) : State :=
  { State.reset with
    time := s.time, dirInvert := s.dirInvert, lines := s.lines, mbox := s.mbox, snap := s.snap, evt := s.evt,
    enc := s.enc, btnPrev := s.btnPrev, modePrev := s.modePrev, rel := s.rel }

theorem State.samePlanner_iff (s t : State) : s.samePlanner t ↔ s.planner = t.planner := by
  constructor
  · rintro ⟨hfreq, hoffset, hlock, hplan⟩
    simp only [State.planner, hfreq, hoffset, hlock, hplan]
  · intro h
    simpa [State.planner, State.samePlanner] using h

theorem State.sameDecoder_iff (s t : State) : s.sameDecoder t ↔ s.decoder = t.decoder := by
  constructor
  · rintro ⟨htime, hdir, hlines, hmbox, hsnap, hevt, henc, hbtn, hmode, hrel⟩
    simp only [State.decoder, htime, hdir, hlines, hmbox, hsnap, hevt, henc, hbtn, hmode, hrel]
  · intro h
    simp only [State.decoder, State.mk.injEq] at h
    simp only [State.sameDecoder, h, and_self]

/-! ## A unit on its own -/

/-- A part of the state that every instruction changes as if it stood alone. -/
def Autonomous (part : State → State) : Prop :=
  ∀ (i : Instr) (s t : State), exec i s = .next t → part t = part (nextState i (part s))

/-- A run's first instruction leads to a state, and the rest of the run goes on from there. -/
theorem execAll_cons {i : Instr} {run : List Instr} {s t : State} (h : execAll (i :: run) s = .next t) :
    ∃ u, exec i s = .next u ∧ execAll run u = .next t := by
  rw [execAll] at h
  split at h
  · exact ⟨_, ‹_›, h⟩
  · cases h
  · cases h

/-- A part that each instruction changes as if it stood alone learns nothing of the rest over any run. -/
theorem Autonomous.execAll {part : State → State} (auto : Autonomous part) (run : List Instr) {s s' t t' : State}
    (same : part s = part s') (ht : execAll run s = .next t) (ht' : execAll run s' = .next t') : part t = part t' := by
  induction run generalizing s s' with
  | nil =>
    cases ht
    cases ht'
    exact same
  | cons i run ih =>
    obtain ⟨u, hu, ht⟩ := execAll_cons ht
    obtain ⟨u', hu', ht'⟩ := execAll_cons ht'
    refine ih ?_ ht ht'
    rw [auto i s u hu, auto i s' u' hu', same]

theorem nextState_wr_regOffset (r : Reg) (v : Word) (s : State) :
    nextState (.wr (regOffset r) v) s = writeReg s v r := by
  rw [nextState, exec, execWr_regOffset]

theorem nextState_rd_regOffset (r : Reg) (s : State) :
    nextState (.rd (regOffset r)) s = { s with readData := some (readReg s r) } := by
  rw [nextState, exec, execRd_regOffset]

/-! ## The planner -/

/-- PLAN reads and writes the planner only (spec/41_synthesis.md R147). -/
theorem planner_planStep (s : State) : (planStep s).planner = (planStep s.planner).planner := by
  have target : planStep s.planner =
      recordPlan s.planner (synthesize (effectiveTarget (planFrequency s) (planOffset s))) := rfl
  rw [target, planStep]
  cases synthesize (effectiveTarget (planFrequency s) (planOffset s)) <;> rfl

theorem planner_edgeStep (s : State) : (edgeStep s).planner = s.planner := by
  simp only [State.planner, edgeStep_frame]

/-- Of the commands, PLAN alone touches the planner. -/
theorem planner_issueCommand (v : Word) (s : State) :
    (issueCommand v s).planner = (issueCommand v s.planner).planner := by
  unfold issueCommand
  split
  · rfl
  · exact planner_planStep s
  · rfl
  · rfl
  · rfl

theorem planner_writeReg (s : State) (v : Word) (r : Reg) :
    (writeReg s v r).planner = (writeReg s.planner v r).planner := by
  cases r with
  | cmd => exact planner_issueCommand v s
  | _ => rfl

/-- The planner reads nothing of the rest of the block (spec/41_synthesis.md R130, R147). -/
theorem planner_autonomous : Autonomous State.planner := by
  intro i s t h
  cases i with
  | rd off =>
    obtain ⟨r, rfl, rfl⟩ := execRd_next h
    rw [nextState_rd_regOffset]
    rfl
  | wr off v =>
    obtain ⟨r, rfl, rfl⟩ := execWr_next h
    rw [nextState_wr_regOffset]
    exact planner_writeReg s v r
  | plan =>
    cases h
    exact planner_planStep s
  | edgeA =>
    cases h
    exact (planner_edgeStep s).trans (planner_edgeStep s.planner).symm
  | _ =>
    cases h
    rfl

/-! ## The input event decoder -/

theorem decoder_planStep (s : State) : (planStep s).decoder = s.decoder := by
  simp only [State.decoder, planStep_frame]

/-- An edge is judged and recorded by the decoder alone (spec/42_input_events.md R172 to R176). -/
theorem decoder_edgeStep (s : State) : (edgeStep s).decoder = (edgeStep s.decoder).decoder := by
  have judged : edgeStep s.decoder = if edgeAccepted s.enc s.time then acceptEdge s.decoder else s.decoder := rfl
  rw [judged, edgeStep]
  split <;> rfl

/-- Of the commands, PLAN leaves the decoder and the others act within it. -/
theorem decoder_issueCommand (v : Word) (s : State) :
    (issueCommand v s).decoder = (issueCommand v s.decoder).decoder := by
  unfold issueCommand
  split
  · rfl
  · exact (decoder_planStep s).trans (decoder_planStep s.decoder).symm
  · rfl
  · rfl
  · rfl

theorem decoder_writeReg (s : State) (v : Word) (r : Reg) :
    (writeReg s v r).decoder = (writeReg s.decoder v r).decoder := by
  cases r with
  | cmd => exact decoder_issueCommand v s
  | _ => rfl

/-- The decoder reads nothing of the rest of the block (spec/42_input_events.md R170). -/
theorem decoder_autonomous : Autonomous State.decoder := by
  intro i s t h
  cases i with
  | rd off =>
    obtain ⟨r, rfl, rfl⟩ := execRd_next h
    rw [nextState_rd_regOffset]
    rfl
  | wr off v =>
    obtain ⟨r, rfl, rfl⟩ := execWr_next h
    rw [nextState_wr_regOffset]
    exact decoder_writeReg s v r
  | plan =>
    cases h
    exact (decoder_planStep s).trans (decoder_planStep s.decoder).symm
  | edgeA =>
    cases h
    exact decoder_edgeStep s
  | _ =>
    cases h
    rfl

/-- Settles O49: each unit changes as if it stood alone, so two states that agree on a unit agree on it after every
run. -/
theorem plannerAndDecoderDoNotInterfere : Obligations.PlannerAndDecoderDoNotInterfere := by
  intro run s s' t t' ht ht'
  constructor
  · intro same
    rw [State.samePlanner_iff] at same ⊢
    exact planner_autonomous.execAll run same ht ht'
  · intro same
    rw [State.sameDecoder_iff] at same ⊢
    exact decoder_autonomous.execAll run same ht ht'

end Sys2Proof.Machine
end

section
/-! PROOFS. The planner's arithmetic (spec/41_synthesis.md R134 to R141, R150 to R156): the two bounds as inequalities
between products, the chosen divider as a multiple of 4 in an interval, and from them the divider of every target. -/

namespace Sys2Proof.Machine

/-! ## The bounds -/

theorem ceilDiv_le_iff {a b q : Nat} (hb : 0 < b) : ceilDiv a b ≤ q ↔ a ≤ b * q := by
  rw [← ceilDiv_le_iff_le_mul hb, Nat.ceilDiv_eq_add_pred_div, ceilDiv]

/-- The least divider, as an inequality between products (spec/41_synthesis.md R134). -/
theorem dividerMin_le_iff {fout : Nat} (hf : 0 < fout) (n : Nat) :
    dividerMin fout ≤ n ↔ 4 ≤ n ∧ 600000000 ≤ fout * n := by
  rw [dividerMin, max_le_iff, ceilDiv_le_iff hf]
  rfl

/-- Up to 225 MHz the raise to 4 does nothing (spec/41_synthesis.md R135, spec/92_eei_decisions.md D9). -/
theorem dividerMax_eq_min {fout : Nat} (hf : 0 < fout) (hle : fout ≤ 225000000) :
    dividerMax fout = min 900 (900000000 / fout) := by
  have quotient : 4 ≤ 900000000 / fout := (Nat.le_div_iff_mul_le hf).mpr (by omega)
  exact max_eq_right (le_min (by decide) quotient)

/-- The greatest divider, as an inequality between products (spec/41_synthesis.md R135). -/
theorem le_dividerMax_iff {fout : Nat} (hf : 0 < fout) (hle : fout ≤ 225000000) (n : Nat) :
    n ≤ dividerMax fout ↔ n ≤ 900 ∧ fout * n ≤ 900000000 := by
  rw [dividerMax_eq_min hf hle, le_min_iff, Nat.le_div_iff_mul_le hf, Nat.mul_comm]

/-- Above 225 MHz no divider of at least 4 keeps the product in range, and the raise to 4 decides
(spec/41_synthesis.md R135, R155). -/
theorem dividerMax_of_lt {fout : Nat} (hlt : 225000000 < fout) : dividerMax fout = 4 := by
  have quotient : 900000000 / fout < 4 := (Nat.div_lt_iff_lt_mul (by omega)).mpr (by omega)
  exact max_eq_left ((min_le_right _ _).trans quotient.le)

theorem dividerMin_of_lt {fout : Nat} (hlt : 225000000 < fout) : dividerMin fout = 4 := by
  have bound : dividerMin fout ≤ 4 := (dividerMin_le_iff (by omega) 4).mpr (by omega)
  exact bound.antisymm (four_le_dividerMin fout)

/-- Settles O25: each bound is the end of the numbers that meet its inequality. -/
theorem dividerBoundsAreTight : Obligations.DividerBoundsAreTight := by
  intro fout hf
  simp only [Nat.mul_comm _ fout]
  refine ⟨⟨?_, fun n hn => ?_⟩, fun hle => ⟨?_, fun n hn => ?_⟩, dividerMax_of_lt⟩
  · exact (dividerMin_le_iff hf _).mp le_rfl
  · exact (dividerMin_le_iff hf n).mpr hn
  · exact (le_dividerMax_iff hf hle _).mp le_rfl
  · exact (le_dividerMax_iff hf hle n).mpr hn

/-! ## The choice of a divider -/

/-- Path (a)'s candidate (spec/41_synthesis.md R137). -/
theorem exactCandidate_isGreatest (rmax : Nat) :
    IsGreatest {m : Nat | 4 ∣ m ∧ m ≤ min rmax 127} (exactCandidate rmax) := by
  unfold exactCandidate Config.rMult Config.phaseMax
  refine ⟨⟨Nat.dvd_mul_right .., Nat.mul_div_le ..⟩, fun m hm => ?_⟩
  obtain ⟨⟨k, rfl⟩, hk⟩ := hm
  omega

/-- Path (b)'s divider (spec/41_synthesis.md R138). -/
theorem cappedCandidate_isLeast (rmin : Nat) : IsLeast {m : Nat | 4 ∣ m ∧ rmin ≤ m} (cappedCandidate rmin) := by
  refine ⟨⟨Nat.dvd_mul_right .., (cappedCandidate_bounds rmin).1⟩, fun m hm => ?_⟩
  obtain ⟨⟨k, rfl⟩, hk⟩ := hm
  unfold cappedCandidate ceilDiv Config.rMult
  omega

/-- Settles O26: a greatest and a least element are unique, so the two candidates are the model's. -/
theorem dividerIsLargestExactElseSmallestCapped : Obligations.DividerIsLargestExactElseSmallestCapped := by
  intro rmin rmax a b _ hmax ha hb
  obtain rfl := ha.unique (exactCandidate_isGreatest rmax)
  obtain rfl := hb.unique (cappedCandidate_isLeast rmin)
  obtain ⟨le127, mod4⟩ := exactCandidate_bounds rmax
  refine ⟨ha.2 ⟨dvd_rfl, by omega⟩, by omega, ?_⟩
  simp only [chooseDivider, ← not_le, ite_not]

/-- The chosen divider is a multiple of 4 between the bounds: up to 127 the last one there, above it the first
(spec/41_synthesis.md R137, R138, R153). -/
theorem chooseDivider_eq_some_iff {rmin rmax r : Nat} : chooseDivider rmin rmax = some r ↔
    r % 4 = 0 ∧ rmin ≤ r ∧ r ≤ rmax ∧ (r ≤ 127 → min rmax 127 < r + 4) ∧ (127 < r → r < rmin + 4) := by
  unfold chooseDivider exactCandidate cappedCandidate ceilDiv Config.rMult Config.phaseMax
  split_ifs <;> simp only [Option.some.injEq, false_iff] <;> omega

/-- There is no divider exactly if no multiple of 4 lies between the bounds (spec/41_synthesis.md R138). -/
theorem chooseDivider_eq_none_iff {rmin rmax : Nat} :
    chooseDivider rmin rmax = none ↔ ∀ m, rmin ≤ m → m ≤ rmax → m % 4 ≠ 0 := by
  constructor
  · intro h m low high mult
    have first : cappedCandidate rmin ≤ m := (cappedCandidate_isLeast rmin).2 ⟨Nat.dvd_of_mod_eq_zero mult, low⟩
    unfold chooseDivider at h
    split_ifs at h
    omega
  · intro h
    rw [Option.eq_none_iff_forall_ne_some]
    intro r hr
    obtain ⟨mult, low, high, _⟩ := chooseDivider_eq_some_iff.mp hr
    exact h r low high mult

/-- A chosen divider fits the phase register exactly if it comes from path (a) (spec/41_synthesis.md R153). -/
theorem le127_iff_path {rmin rmax r : Nat} (h : chooseDivider rmin rmax = some r) :
    r ≤ 127 ↔ rmin ≤ exactCandidate rmax := by
  constructor
  · intro hr
    obtain ⟨mult, low, high, _⟩ := chooseDivider_eq_some_iff.mp h
    exact low.trans ((exactCandidate_isGreatest rmax).2 ⟨Nat.dvd_of_mod_eq_zero mult, le_min high hr⟩)
  · intro hpath
    rcases chooseDivider_eq_some h with ⟨_, rfl⟩ | ⟨hlt, _⟩
    · exact (exactCandidate_bounds rmax).1
    · omega

/-! ## The divider of a target -/

/-- `r` is the divider that `fout` is planned with, in products alone: a multiple of 4 that places the PLL in its
range, the last such divider up to 127 if there is one, else the first above (spec/41_synthesis.md R137 to R140). -/
structure IsDivider (fout r : Nat) : Prop where
  /-- R152 -/
  mult : r % 4 = 0
  /-- R135 -/
  le900 : r ≤ 900
  /-- R140 -/
  pllMin : 600000000 ≤ fout * r
  /-- R140 -/
  pllMax : fout * r ≤ 900000000
  /-- path (a), R137: the next divider does not fit the phase register or passes the PLL's range -/
  last : r ≤ 127 → r = 124 ∨ 900000000 < fout * (r + 4)
  /-- path (b), R138: the divider before does not reach the PLL's range -/
  first : 127 < r → fout * (r - 4) < 600000000

theorem IsDivider.four_le {fout r : Nat} (h : IsDivider fout r) : 4 ≤ r := by
  have notZero : r ≠ 0 := by
    rintro rfl
    exact absurd h.pllMin (by simp)
  have := h.mult
  omega

theorem IsDivider.target_pos {fout r : Nat} (h : IsDivider fout r) : 0 < fout := by
  refine Nat.pos_of_ne_zero ?_
  rintro rfl
  exact absurd h.pllMin (by simp)

/-- A planned target is at most a quarter of PLL_MAX (spec/41_synthesis.md R155). -/
theorem IsDivider.target_le {fout r : Nat} (h : IsDivider fout r) : fout ≤ 225000000 := by
  have quarter : fout * 4 ≤ fout * r := Nat.mul_le_mul_left fout h.four_le
  have := h.pllMax
  omega

/-- Up to 225 MHz the choice between the bounds is the divider in products. -/
theorem chooseDivider_iff_isDivider {fout r : Nat} (hf : 0 < fout) (hle : fout ≤ 225000000) :
    chooseDivider (dividerMin fout) (dividerMax fout) = some r ↔ IsDivider fout r := by
  have least := dividerMin_le_iff hf
  have greatest := le_dividerMax_iff hf hle
  rw [chooseDivider_eq_some_iff]
  constructor
  · rintro ⟨mult, low, high, last, first⟩
    rw [least] at low
    rw [greatest] at high
    refine ⟨mult, high.1, low.2, high.2, fun h => ?_, fun h => ?_⟩
    · have := greatest (r + 4)
      have := last h
      omega
    · have := least (r - 4)
      have := first h
      omega
  · intro h
    refine ⟨h.mult, (least r).mpr ⟨h.four_le, h.pllMin⟩, (greatest r).mpr ⟨h.le900, h.pllMax⟩, fun hr => ?_,
      fun hr => ?_⟩
    · have := greatest (r + 4)
      have := h.last hr
      omega
    · have := least (r - 4)
      have := h.first hr
      omega

/-- Above 225 MHz the choice is 4 (spec/41_synthesis.md R155). -/
theorem chooseDivider_of_lt {fout : Nat} (hlt : 225000000 < fout) :
    chooseDivider (dividerMin fout) (dividerMax fout) = some 4 := by
  rw [dividerMin_of_lt hlt, dividerMax_of_lt hlt]
  decide

/-- Settles O27: up to 225 MHz a chosen divider keeps the product in range; above, the divider is 4, whose product
passes the range. -/
theorem productCheckFailsExactlyAbove225MHz : Obligations.ProductCheckFailsExactlyAbove225MHz := by
  intro fout hf
  constructor
  · rintro ⟨r, hr, outside⟩
    by_contra hle
    have h := (chooseDivider_iff_isDivider hf (not_lt.mp hle)).mp hr
    have := h.pllMin
    have := h.pllMax
    omega
  · intro hlt
    exact ⟨4, chooseDivider_of_lt hlt, .inr (by omega)⟩

/-- The plan of a target and its divider (spec/41_synthesis.md R139, R141). -/
def planWithDivider (fout r : Nat) : ExactPlan := ⟨fout, fout * r, r, phaseSteps r, phaseCapped r⟩

theorem IsDivider.synthesize_eq {fout r : Nat} (h : IsDivider fout r) :
    synthesize fout = some (planWithDivider fout r) := by
  have chosen := (chooseDivider_iff_isDivider h.target_pos h.target_le).mpr h
  have inRange : pllInRange (fout * r) = true := by
    simp only [pllInRange, Bool.and_eq_true, decide_eq_true_eq]
    exact ⟨h.pllMin, h.pllMax⟩
  simp only [synthesize, h.target_pos.ne', if_false, chosen, inRange, if_true, planWithDivider]

theorem phaseCapped_of_le {r : Nat} (h : r ≤ 127) : phaseCapped r = false := decide_eq_false (not_lt.mpr h)

theorem phaseCapped_of_lt {r : Nat} (h : 127 < r) : phaseCapped r = true := decide_eq_true h

/-- The planner succeeds exactly with the divider of the target (spec/41_synthesis.md R133 to R141). -/
theorem synthesize_eq_some_iff {fout : Nat} {p : ExactPlan} :
    synthesize fout = some p ↔ IsDivider fout p.r ∧ p = planWithDivider fout p.r := by
  constructor
  · intro h
    obtain ⟨hf, chosen, _, high, hp⟩ := synthesize_eq_some h
    obtain ⟨four, _, _⟩ := chooseDivider_bounds chosen
    have quarter : fout * 4 ≤ fout * p.r := Nat.mul_le_mul_left fout four
    unfold Config.pllMax at high
    exact ⟨(chooseDivider_iff_isDivider hf (by omega)).mp chosen, hp⟩
  · rintro ⟨h, hp⟩
    rw [hp]
    exact h.synthesize_eq

theorem synthesize_eq_none_iff {fout : Nat} : synthesize fout = none ↔ ∀ r, ¬ IsDivider fout r := by
  constructor
  · intro h r hr
    rw [hr.synthesize_eq] at h
    cases h
  · intro h
    rw [Option.eq_none_iff_forall_ne_some]
    intro p hp
    exact h p.r (synthesize_eq_some_iff.mp hp).1

/-- Settles O28: up to 225 MHz the two readings are one bound; above, no multiple of 4 lies between 4 and the unraised
bound, and the model's divider fails the check. -/
theorem otherRmaxReadingGivesSamePlan : Obligations.OtherRmaxReadingGivesSamePlan := by
  intro fout hf
  rcases le_or_gt fout 225000000 with hle | hlt
  · rw [← dividerMax_eq_min hf hle]
    cases chosen : chooseDivider (dividerMin fout) (dividerMax fout) with
    | none =>
      simp only [synthesize, hf.ne', if_false, chosen, Option.map_none]
    | some r =>
      have h := (chooseDivider_iff_isDivider hf hle).mp chosen
      rw [h.synthesize_eq]
      exact (if_pos ⟨h.pllMin, h.pllMax⟩).symm
  · have fails : synthesize fout = none :=
      synthesize_eq_none_iff.mpr fun r h => absurd h.target_le (not_le.mpr hlt)
    have quotient : 900000000 / fout < 4 := (Nat.div_lt_iff_lt_mul hf).mpr (by omega)
    have unchosen : chooseDivider (dividerMin fout) (min 900 (900000000 / fout)) = none := by
      rw [dividerMin_of_lt hlt, chooseDivider_eq_none_iff]
      omega
    rw [fails, unchosen]
    rfl

/-! ## The bands -/

/-- The two ends of a path (a) band decide the divider of every target between them. -/
theorem isDivider_of_exactBand {r lo hi fout : Nat} (mult : r % 4 = 0) (le124 : r ≤ 124)
    (low : 600000000 ≤ lo * r) (high : hi * r ≤ 900000000) (last : r = 124 ∨ 900000000 < lo * (r + 4))
    (hlo : lo ≤ fout) (hhi : fout ≤ hi) : IsDivider fout r where
  mult := mult
  le900 := by omega
  pllMin := low.trans (Nat.mul_le_mul_right r hlo)
  pllMax := (Nat.mul_le_mul_right r hhi).trans high
  last _ := last.imp_right fun h => h.trans_le (Nat.mul_le_mul_right (r + 4) hlo)
  first := by omega

/-- Every row of R156's table has the ends of a path (a) band. -/
theorem exactBands_ends : ∀ row ∈ exactBands, row.1 % 4 = 0 ∧ row.1 ≤ 124 ∧ 600000000 ≤ row.2.1 * row.1 ∧
    row.2.2 * row.1 ≤ 900000000 ∧ (row.1 = 124 ∨ 900000000 < row.2.1 * (row.1 + 4)) := by
  decide

/-- Above 127 the first divider to reach PLL_MIN cannot pass PLL_MAX (spec/41_synthesis.md R138). -/
theorem isDivider_of_first {fout r : Nat} (mult : r % 4 = 0) (above : 127 < r) (le900 : r ≤ 900)
    (low : 600000000 ≤ fout * r) (first : fout * (r - 4) < 600000000) : IsDivider fout r where
  mult := mult
  le900 := le900
  pllMin := low
  pllMax := by
    have target : fout * 124 ≤ fout * (r - 4) := Nat.mul_le_mul_left fout (by omega)
    have product : fout * r = fout * (r - 4) + fout * 4 := by rw [← Nat.mul_add, Nat.sub_add_cancel (by omega)]
    omega
  last := by omega
  first _ := first

/-- Settles O29: a path (a) row by its two ends, a path (b) band because the divider reaches PLL_MIN and the one before
it does not. -/
theorem dividerBandsHold : Obligations.DividerBandsHold := by
  constructor
  · rintro ⟨r, lo, hi⟩ fout hrow hlo hhi
    obtain ⟨mult, le124, low, high, last⟩ := exactBands_ends _ hrow
    rw [(isDivider_of_exactBand mult le124 low high last hlo hhi).synthesize_eq]
    exact congrArg (fun capped => some (r, capped)) (phaseCapped_of_le (by omega))
  · intro r fout hge hle mult hlo hhi
    have low : 600000000 ≤ fout * r := by
      rw [Nat.mul_comm]
      exact (ceilDiv_le_iff (by omega)).mp hlo
    have first : fout * (r - 4) < 600000000 := by
      rw [Nat.mul_comm, ← not_le, ← ceilDiv_le_iff (by omega)]
      exact not_le.mpr hhi
    rw [(isDivider_of_first mult (by omega) hle low first).synthesize_eq]
    exact congrArg (fun capped => some (r, capped)) (phaseCapped_of_lt (by omega))

/-! ## The reachable set -/

/-- The two intervals of spec/41_synthesis.md R154. -/
def Reachable (fout : Nat) : Prop :=
  (666667 ≤ fout ∧ fout ≤ 112500000) ∨ (150000000 ≤ fout ∧ fout ≤ 225000000)

/-- R156's divider of a reachable target, in closed form. -/
def closedDivider (fout : Nat) : Nat :=
  if 4838710 ≤ fout then min 124 (4 * (900000000 / fout / 4))
  else 4 * ((((600000000 + fout - 1) / fout) + 3) / 4)

/-- R156, path (a): the last multiple of 4 within PLL_MAX reaches PLL_MIN too, except for targets in the gap between
the two intervals. -/
theorem isDivider_closedDivider_of_ge {fout : Nat} (hge : 4838710 ≤ fout) (h : Reachable fout) :
    IsDivider fout (closedDivider fout) := by
  have greatest : ∀ n, n ≤ 900000000 / fout ↔ fout * n ≤ 900000000 := fun n => by
    rw [Nat.le_div_iff_mul_le (by omega), Nat.mul_comm]
  rw [closedDivider, if_pos hge]
  generalize 900000000 / fout = q at greatest
  have high : fout * (4 * (q / 4)) ≤ 900000000 := (greatest _).mp (by omega)
  have last : 900000000 < fout * (4 * (q / 4) + 4) := by
    rw [← not_le, ← greatest]
    omega
  rcases le_or_gt 124 (4 * (q / 4)) with hcap | hfit
  · rw [min_eq_left hcap]
    have capped : fout * 124 ≤ fout * (4 * (q / 4)) := Nat.mul_le_mul_left fout hcap
    exact ⟨by decide, by decide, by omega, by omega, fun _ => .inl rfl, by omega⟩
  · rw [min_eq_right hfit.le]
    have low : 600000000 ≤ fout * (4 * (q / 4)) := by
      rw [Nat.mul_add] at last
      rcases le_or_gt fout 75000000 with hband | hband
      · omega
      · rcases h with ⟨_, hle⟩ | ⟨hlow, hle⟩
        · have eight : 8 ≤ q := (greatest 8).mpr (by omega)
          have : fout * 8 ≤ fout * (4 * (q / 4)) := Nat.mul_le_mul_left fout (by omega)
          omega
        · have four : 4 ≤ q := (greatest 4).mpr (by omega)
          have : fout * 4 ≤ fout * (4 * (q / 4)) := Nat.mul_le_mul_left fout (by omega)
          omega
    exact ⟨by omega, by omega, low, high, fun _ => .inr last, by omega⟩

/-- R156, path (b): the first multiple of 4 that reaches PLL_MIN. -/
theorem isDivider_closedDivider_of_lt {fout : Nat} (hlt : fout < 4838710) (h : Reachable fout) :
    IsDivider fout (closedDivider fout) := by
  have lowest : 666667 ≤ fout := by
    unfold Reachable at h
    omega
  have least : ∀ n, (600000000 + fout - 1) / fout ≤ n ↔ 600000000 ≤ fout * n := fun n => ceilDiv_le_iff (by omega)
  rw [closedDivider, if_neg (not_le.mpr hlt)]
  generalize (600000000 + fout - 1) / fout = q at least
  have above : 124 < q := by
    rw [← not_le, least]
    omega
  have le900 : q ≤ 900 := (least 900).mpr (by omega)
  have low : 600000000 ≤ fout * (4 * ((q + 3) / 4)) := (least _).mp (by omega)
  have first : fout * (4 * ((q + 3) / 4) - 4) < 600000000 := by
    rw [← not_le, ← least]
    omega
  exact isDivider_of_first (by omega) (by omega) (by omega) low first

theorem isDivider_closedDivider {fout : Nat} (h : Reachable fout) : IsDivider fout (closedDivider fout) := by
  rcases le_or_gt 4838710 fout with hge | hlt
  · exact isDivider_closedDivider_of_ge hge h
  · exact isDivider_closedDivider_of_lt hlt h

/-- A target with a divider lies in one of the two intervals: 900 reaches PLL_MIN, and the divider is 4 or at least
8. -/
theorem IsDivider.reachable {fout r : Nat} (h : IsDivider fout r) : Reachable fout := by
  have low : fout * r ≤ fout * 900 := Nat.mul_le_mul_left fout h.le900
  obtain ⟨mult, _, pllMin, pllMax, _, _⟩ := h
  unfold Reachable
  rcases le_or_gt 8 r with hr | hr
  · have high : fout * 8 ≤ fout * r := Nat.mul_le_mul_left fout hr
    omega
  · obtain rfl | rfl : r = 0 ∨ r = 4 := by omega
    · omega
    · omega

theorem synthesize_isSome_iff (fout : Nat) : (synthesize fout).isSome = true ↔ Reachable fout := by
  constructor
  · intro h
    obtain ⟨p, hp⟩ := Option.isSome_iff_exists.mp h
    exact (synthesize_eq_some_iff.mp hp).1.reachable
  · intro h
    rw [(isDivider_closedDivider h).synthesize_eq]
    rfl

/-- Below 666 667 Hz no divider up to 900 reaches PLL_MIN. -/
theorem lt_dividerMin_of_lt {fout : Nat} (hf : 0 < fout) (hlt : fout < 666667) : 900 < dividerMin fout := by
  rw [← not_le, dividerMin_le_iff hf]
  omega

/-- In the gap only 5, 6 and 7 can lie between the bounds. -/
theorem not_mult_of_gap {fout m : Nat} (hgap : 112500001 ≤ fout ∧ fout ≤ 149999999) (low : dividerMin fout ≤ m)
    (high : m ≤ dividerMax fout) : m % 4 ≠ 0 := by
  rw [dividerMin_le_iff (by omega)] at low
  rw [le_dividerMax_iff (by omega) (by omega)] at high
  have lt8 : m < 8 := by
    by_contra hge
    have : fout * 8 ≤ fout * m := Nat.mul_le_mul_left fout (not_lt.mp hge)
    omega
  have ne4 : m ≠ 4 := by
    rintro rfl
    omega
  omega

/-- Settles O22: success by the closed-form divider, and each failure by its bounds. -/
theorem plannerSucceedsExactlyOnReachableSet : Obligations.PlannerSucceedsExactlyOnReachableSet := by
  intro fout
  refine ⟨synthesize_isSome_iff fout, fun ⟨hf, hlt⟩ => ?_, fun hgap => ?_, fun hlt => ?_⟩
  · have above := lt_dividerMin_of_lt hf hlt
    have below := dividerMax_le fout
    exact ⟨above, chooseDivider_eq_none_iff.mpr (by omega)⟩
  · exact ⟨fun _ => not_mult_of_gap hgap, chooseDivider_eq_none_iff.mpr fun _ => not_mult_of_gap hgap⟩
  · exact ⟨chooseDivider_of_lt hlt, by omega⟩

end Sys2Proof.Machine
end

section
/-! PROOFS. PLAN (spec/41_synthesis.md R130, R142 to R147): what it writes on a reachable and on an unreachable target,
what its registers hold after a success, and that its inputs alone decide it. -/

namespace Sys2Proof.Machine

/-! ## What PLAN writes -/

/-- What the planner answers for a state's inputs (spec/41_synthesis.md R131, R132). -/
def State.planOutcome (s : State) : Option ExactPlan :=
  synthesize (effectiveTarget (planFrequency s) (planOffset s))

theorem exec_plan (s : State) : exec .plan s = .next (recordPlan s s.planOutcome) := rfl

theorem effectiveTarget_eq_toNat (f : Nat) (o : Int) : effectiveTarget f o = ((f : Int) + o).toNat := by
  unfold effectiveTarget
  omega

theorem reachableTarget_iff (x : Int) : reachableTarget x = true ↔ Reachable x.toNat := by
  simp only [reachableTarget, Reachable, Bool.or_eq_true, decide_eq_true_eq]
  omega

/-- Settles O21: outside the two intervals the planner has no plan. -/
theorem planOnUnreachableTargetHoldsPlan : Obligations.PlanOnUnreachableTargetHoldsPlan := by
  intro s h
  have fails : s.planOutcome = none := by
    rw [State.planOutcome, effectiveTarget_eq_toNat, ← Option.not_isSome_iff_eq_none, synthesize_isSome_iff,
      ← reachableTarget_iff]
    exact ne_true_of_eq_false h
  rw [exec_plan, fails]
  rfl

/-- Settles O19: no target at or below zero is reachable. -/
theorem planOnNonpositiveSumIsUnreachable : Obligations.PlanOnNonpositiveSumIsUnreachable := by
  intro s h
  apply planOnUnreachableTargetHoldsPlan
  rw [← Bool.not_eq_true, reachableTarget_iff, Int.toNat_of_nonpos h]
  unfold Reachable
  omega

/-- LOCK of a plan with divider `r` (spec/41_synthesis.md R145). -/
theorem lockOfPlan_phaseCapped (r : Nat) :
    lockOfPlan (phaseCapped r) = if r ≤ 127 then .locked else .phaseLimited := by
  split
  · rw [phaseCapped_of_le ‹_›]
    rfl
  · rw [phaseCapped_of_lt (by omega)]
    rfl

theorem lockOfPlan_ne_noLock (capped : Bool) : lockOfPlan capped ≠ .noLock := by
  cases capped <;> decide

theorem phaseSteps_eq_ite (r : Nat) : phaseSteps r = if r ≤ 127 then r else 127 :=
  (phaseSteps_eq_min r).trans (min_def r 127)

/-- The registers and LOCK after a success, in the numbers of spec/41_synthesis.md R142 and R145. -/
theorem recordPlan_planWithDivider (s : State) (fout r : Nat) :
    recordPlan s (some (planWithDivider fout r)) = { s with
      plan := { fout := BitVec.ofNat 32 fout, pll := BitVec.ofNat 32 (fout * r), r := BitVec.ofNat 10 r,
                steps := BitVec.ofNat 7 (if r ≤ 127 then r else 127), capped := decide (127 < r) },
      lock := if r ≤ 127 then .locked else .phaseLimited } := by
  rw [← lockOfPlan_phaseCapped, ← phaseSteps_eq_ite]
  rfl

/-- Settles O20: the closed-form divider is the target's divider, and PLAN records the plan with it. -/
theorem planOnReachableTargetWritesPlan : Obligations.PlanOnReachableTargetWritesPlan := by
  intro s fout hsum hreach
  have reachable : Reachable fout := (reachableTarget_iff fout).mp hreach
  have target : effectiveTarget (planFrequency s) (planOffset s) = fout := by
    rw [effectiveTarget_eq_toNat, planFrequency, planOffset, hsum, Int.toNat_natCast]
  have succeeds : s.planOutcome = some (planWithDivider fout (closedDivider fout)) := by
    rw [State.planOutcome, target, (isDivider_closedDivider reachable).synthesize_eq]
  rw [exec_plan, succeeds, recordPlan_planWithDivider]
  rfl

/-! ## After a success -/

/-- A PLAN that does not report NO_LOCK recorded a plan. -/
theorem planned_of_lock {s t : State} (h : exec .plan s = .next t) (hlock : t.lock ≠ .noLock) :
    ∃ p, s.planOutcome = some p ∧ t = recordPlan s (some p) := by
  rw [exec_plan] at h
  cases outcome : s.planOutcome with
  | none =>
    rw [outcome] at h
    cases h
    exact absurd rfl hlock
  | some p =>
    rw [outcome] at h
    cases h
    exact ⟨p, rfl, rfl⟩

/-- Settles O23: the registers hold the planner's plan. -/
theorem successfulPlanIsInRange : Obligations.SuccessfulPlanIsInRange := by
  intro s t h hlock
  obtain ⟨p, outcome, rfl⟩ := planned_of_lock h hlock
  obtain ⟨exactProduct, pllMin, pllMax, _, _, _, capped, steps⟩ := planRegsOf_holdsPlan outcome
  refine ⟨pllMin, pllMax, exactProduct, fun hr => ⟨?_, ?_⟩, fun hr => ⟨?_, ?_⟩⟩
  · exact capped.trans (decide_eq_false (not_lt.mpr hr))
  · exact steps.trans (min_eq_left hr)
  · exact capped.trans (decide_eq_true hr)
  · exact steps.trans (min_eq_right hr.le)

theorem planRegsOf_r {fout : Nat} {p : ExactPlan} (h : synthesize fout = some p) : (planRegsOf p).r.toNat = p.r := by
  have bound := (synthesize_eq_some_iff.mp h).1.le900
  exact (BitVec.toNat_ofNat ..).trans (Nat.mod_eq_of_lt (by omega))

/-- Settles O24: a divider from path (a) fits the phase register and one from path (b) does not. -/
theorem pathDecidesDividerAndPhase : Obligations.PathDecidesDividerAndPhase := by
  intro s t h hlock
  obtain ⟨p, outcome, rfl⟩ := planned_of_lock h hlock
  rw [State.planOutcome, effectiveTarget_eq_toNat, planFrequency, planOffset] at outcome
  intro fout
  obtain ⟨_, chosen, _, _, hp⟩ := synthesize_eq_some outcome
  obtain ⟨four, _, mult⟩ := chooseDivider_bounds chosen
  have path := le127_iff_path chosen
  have stored : (recordPlan s (some p)).plan.r.toNat = p.r := planRegsOf_r outcome
  have phase : p.capped = phaseCapped p.r := congrArg ExactPlan.capped hp
  rw [stored]
  refine ⟨mult, fun exactPath => ?_, fun cappedPath => ?_⟩
  · have fits : p.r ≤ 127 := path.mpr exactPath
    have uncapped : p.capped = false := phase.trans (phaseCapped_of_le fits)
    exact ⟨four, by omega, uncapped, lockOfPlan_eq_locked.mpr uncapped⟩
  · have above : 127 < p.r := not_le.mp fun fits => absurd (path.mp fits) (not_le.mpr cappedPath)
    have capped : p.capped = true := phase.trans (phaseCapped_of_lt above)
    obtain ⟨_, _, belowMax, _⟩ := chooseDivider_eq_some_iff.mp chosen
    exact ⟨by omega, belowMax, dividerMax_le fout, capped, lockOfPlan_eq_phaseLimited.mpr capped⟩

/-! ## The inputs decide -/

theorem planOutcome_congr {s s' : State} (hfreq : s.spFreq = s'.spFreq) (hoffset : s.spOffset = s'.spOffset) :
    s.planOutcome = s'.planOutcome := by
  rw [State.planOutcome, State.planOutcome, planFrequency, planFrequency, planOffset, planOffset, hfreq, hoffset]

/-- Settles O31: the same inputs have the same outcome, and PLAN records it. -/
theorem planDependsOnInputsAlone : Obligations.PlanDependsOnInputsAlone := by
  intro s s' t t' hfreq hoffset h h'
  rw [exec_plan] at h h'
  rw [← planOutcome_congr hfreq hoffset] at h'
  cases h
  cases h'
  cases s.planOutcome with
  | none => exact ⟨rfl, absurd rfl, fun _ => ⟨rfl, rfl⟩⟩
  | some p => exact ⟨rfl, fun _ => rfl, fun hl => absurd hl (lockOfPlan_ne_noLock p.capped)⟩

/-- Two states with the same planner have the same planner after a PLAN (spec/41_synthesis.md R147). -/
theorem State.samePlanner.planStep {s t : State} (h : s.samePlanner t) : (planStep s).samePlanner (planStep t) := by
  rw [State.samePlanner_iff] at h ⊢
  rw [planner_planStep s, planner_planStep t, h]

/-- PLAN is idempotent (spec/41_synthesis.md R147): it does not write its inputs, so it records the same outcome
again. -/
theorem planStep_planStep (s : State) : planStep (planStep s) = planStep s := by
  have same : (planStep s).planOutcome = s.planOutcome :=
    planOutcome_congr (by simp only [planStep_frame]) (by simp only [planStep_frame])
  have recorded : ∀ t, planStep t = recordPlan t t.planOutcome := fun _ => rfl
  rw [recorded (planStep s), same, recorded s]
  cases s.planOutcome <;> rfl

/-- An instruction leaves the planner, or is a PLAN, or writes the planner's inputs (spec/10_state.md R39 to R45). -/
theorem Effect.planner_cases {s t : State} {i : Instr} (e : Effect s i t) :
    t.samePlanner s ∨ t = planStep s ∨ i = .reset ∨ ∃ x, i = .wr 0x10 x ∨ i = .wr 0x14 x := by
  cases e with
  | planned _ p _ hp =>
    refine .inr (.inl ?_)
    rw [planStep, hp]
    rfl
  | unreachable _ _ hp =>
    refine .inr (.inl ?_)
    rw [planStep, hp]
    rfl
  | reset => exact .inr (.inr (.inl rfl))
  | storeFreq v => exact .inr (.inr (.inr ⟨v, .inl rfl⟩))
  | storeOffset v => exact .inr (.inr (.inr ⟨v, .inr rfl⟩))
  | _ => exact .inl ⟨rfl, rfl, rfl, rfl⟩

/-- A run that does not write the inputs leaves the planner as the last PLAN left it: the PLANs within it record the
same outcome again. -/
theorem samePlanner_of_execAll {run : List Instr} (hrun : ∀ i ∈ run, i ≠ .reset ∧ ∀ x, i ≠ .wr 0x10 x ∧ i ≠ .wr 0x14 x)
    {s t u : State} (hsettled : planStep t = t) (hs : s.samePlanner t) (h : execAll run s = .next u) :
    u.samePlanner t := by
  induction run generalizing s with
  | nil =>
    cases h
    exact hs
  | cons i run ih =>
    obtain ⟨v, hv, hu⟩ := execAll_cons h
    rw [List.forall_mem_cons] at hrun
    obtain ⟨⟨notReset, notWrite⟩, hrest⟩ := hrun
    refine ih hrest ?_ hu
    rcases (effect_of_exec hv).planner_cases with left | rfl | hreset | ⟨x, hfreq | hoffset⟩
    · rw [State.samePlanner_iff] at left hs ⊢
      exact left.trans hs
    · have planned := hs.planStep
      rwa [hsettled] at planned
    · exact absurd hreset notReset
    · exact absurd hfreq (notWrite x).1
    · exact absurd hoffset (notWrite x).2

/-- Settles O30: the run leaves the planner as the first PLAN left it, and the second PLAN does too. -/
theorem plansWithSameInputsAgree : Obligations.PlansWithSameInputsAgree := by
  intro s t u v between hbetween ht hu hv
  cases ht
  cases hv
  have held : u.samePlanner (planStep s) :=
    samePlanner_of_execAll hbetween (planStep_planStep s) ((State.samePlanner_iff _ _).mpr rfl) hu
  have planned := held.planStep
  rw [planStep_planStep] at planned
  obtain ⟨_, _, hlock, hplan⟩ := planned
  exact ⟨hplan, hlock⟩

end Sys2Proof.Machine
end

section
/-! PROOFS. The timebase, the lines and the encoder (spec/42_input_events.md R171 to R182): what each of their steps
writes, and what accepted edges and ENC_TAKE leave in the mailbox over a run. -/

namespace Sys2Proof.Machine

/-! ## The timebase and the lines -/

theorem exec_advance (d : Word) (s : State) : exec (.advance d) s = .next { s with time := s.time + d } := rfl

/-- The sum of two words in natural numbers (spec/42_input_events.md R171). -/
theorem word_add_eq_ofNat (x d : Word) : x + d = BitVec.ofNat 32 ((x.toNat + d.toNat) % 2 ^ 32) := by
  rw [← BitVec.toNat_add, BitVec.ofNat_toNat, BitVec.setWidth_eq]

/-- Settles O32: the record is the encoding of ADVANCE, and TIME has two writers only. -/
theorem advanceAddsModulo : Obligations.AdvanceAddsModulo := by
  intro s d
  refine ⟨decodeOfEncodeIsInstruction (.advance d) rfl, ?_, fun i t h => ?_⟩
  · rw [exec_advance, word_add_eq_ofNat]
  · obtain ⟨_, _, _, time⟩ := environmentStateHasItsWriters i s t h
    exact time

/-- Settles O34: the records are the encodings of the three line steps, each of which assigns its own line. -/
theorem lineStepsSetOneLine : Obligations.LineStepsSetOneLine := by
  intro s level
  exact ⟨decodeOfEncodeIsInstruction (.setEncb level) rfl, decodeOfEncodeIsInstruction (.setBtn level) rfl,
    decodeOfEncodeIsInstruction (.setMode level) rfl, congrArg Host.Outcome.next (driveEncb_eq s level),
    congrArg Host.Outcome.next (driveBtn_eq s level), congrArg Host.Outcome.next (driveMode_eq s level)⟩

/-! ## One edge -/

/-- When an edge is rejected, in natural numbers (spec/42_input_events.md R173, R176). -/
theorem edgeAccepted_eq_false_iff (enc : Reference) (now : Word) : edgeAccepted enc now = false ↔
    enc.valid = true ∧ (now.toNat + 2 ^ 32 - enc.last.toNat) % 2 ^ 32 < 500 := by
  rw [← Bool.not_eq_true, edgeAccepted_iff, not_or, Bool.not_eq_false, not_le]

/-- An accepted edge writes the reference and the mailbox (spec/42_input_events.md R175). -/
theorem exec_edgeA_of_accepted {s : State} (h : edgeAccepted s.enc s.time = true) :
    exec .edgeA s = .next (acceptEdge s) :=
  congrArg Host.Outcome.next (if_pos h)

/-- A rejected edge has no effect (spec/42_input_events.md R176). -/
theorem exec_edgeA_of_rejected {s : State} (h : edgeAccepted s.enc s.time = false) : exec .edgeA s = .next s :=
  congrArg Host.Outcome.next (if_neg (ne_true_of_eq_false h))

/-- Settles O33: the record is the encoding of EDGE_A, and the two clauses are the two outcomes of the acceptance. -/
theorem edgeIsAcceptedOrChangesNothing : Obligations.EdgeIsAcceptedOrChangesNothing := by
  refine ⟨decodeOfEncodeIsInstruction .edgeA rfl, fun s => ⟨fun accepted => ?_, fun rejected => ?_⟩⟩
  · exact exec_edgeA_of_accepted ((edgeAccepted_iff _ _).mpr accepted)
  · exact exec_edgeA_of_rejected ((edgeAccepted_eq_false_iff _ _).mpr rejected)

/-! ## Edge and take -/

/-- A run goes on from the state its first instruction leads to. -/
theorem execAll_cons_of_next {i : Instr} {run : List Instr} {s t : State} (h : exec i s = .next t) :
    execAll (i :: run) s = execAll run t := by
  rw [execAll, h]

/-- An ENC_TAKE does not bear on whether the next edge is accepted (spec/42_input_events.md R173, R180). -/
theorem exec_edgeA_takeStep {s : State} (h : edgeAccepted s.enc s.time = true) :
    exec .edgeA (takeStep s) = .next (acceptEdge (takeStep s)) :=
  exec_edgeA_of_accepted h

/-- Settles O36: a take right after the edge takes its step; an edge right after the take is accepted too, and its step
waits for the next take. -/
theorem edgeAndTakeInEitherOrderLoseNothing : Obligations.EdgeAndTakeInEitherOrderLoseNothing := by
  intro s h
  have accepted : edgeAccepted s.enc s.time = true := (edgeAccepted_iff _ _).mpr h
  have edgeFirst : execAll [.edgeA, .encTake] s = .next (takeStep (acceptEdge s)) :=
    execAll_cons_of_next (exec_edgeA_of_accepted accepted)
  have takeFirst (run : List Instr) :
      execAll (.encTake :: .edgeA :: run) s = execAll run (acceptEdge (takeStep s)) :=
    execAll_cons_of_next (exec_edgeA_takeStep accepted)
  exact ⟨⟨_, edgeFirst, rfl, rfl⟩, ⟨_, takeFirst [], rfl, rfl⟩, ⟨_, takeFirst [.encTake], rfl, rfl⟩⟩

/-! ## The edges that a run accepts -/

/-- The edges of a run are those of its first instruction and those of the rest. -/
theorem acceptedDirections_cons {i : Instr} {run : List Instr} {s t : State} (h : exec i s = .next t) :
    acceptedDirections (i :: run) s = acceptedDirections [i] s ++ acceptedDirections run t := by
  simp only [acceptedDirections, nextState, h, List.append_nil]

theorem acceptedDirections_of_accepted {s : State} (h : edgeAccepted s.enc s.time = true) :
    acceptedDirections [.edgeA] s = [edgeDirection s.lines.encb s.dirInvert] := by
  simp [acceptedDirections, h]

theorem acceptedDirections_of_rejected {s : State} (h : edgeAccepted s.enc s.time = false) :
    acceptedDirections [.edgeA] s = [] := by
  simp [acceptedDirections, h]

theorem acceptedDirections_of_ne_edgeA {i : Instr} (h : i ≠ .edgeA) (s : State) : acceptedDirections [i] s = [] := by
  simp [acceptedDirections, h]

/-! ## A take after no accepted edge -/

/-- Without an accepted edge no instruction makes a step pending (spec/10_state.md R50). -/
theorem mbox_not_pending_of_exec {i : Instr} {s t : State} (h : exec i s = .next t)
    (unaccepted : acceptedDirections [i] s = []) (hs : s.mbox.pending = false) : t.mbox.pending = false := by
  cases effect_of_exec h with
  | edge accepted =>
    rw [acceptedDirections_of_accepted accepted] at unaccepted
    cases unaccepted
  | take | reset => rfl
  | _ => exact hs

theorem mbox_not_pending_of_execAll {run : List Instr} {s t : State} (h : execAll run s = .next t)
    (unaccepted : acceptedDirections run s = []) (hs : s.mbox.pending = false) : t.mbox.pending = false := by
  induction run generalizing s with
  | nil =>
    cases h
    exact hs
  | cons i run ih =>
    obtain ⟨u, hu, ht⟩ := execAll_cons h
    rw [acceptedDirections_cons hu, List.append_eq_nil_iff] at unaccepted
    obtain ⟨first, rest⟩ := unaccepted
    exact ih ht rest (mbox_not_pending_of_exec hu first hs)

/-- Settles O35: a take leaves nothing pending, no instruction of the run makes a step pending, and the second take's
snapshot is the mailbox that it finds. -/
theorem takeSnapshotsAndClears : Obligations.TakeSnapshotsAndClears := by
  refine ⟨rfl, decodeOfEncodeIsInstruction (.wr 0x00 3) rfl, fun s =>
    ⟨exec_wr_cmd_of_decodeCommand rfl s, takeStep s, rfl, takeStep_eq s, fun between u v unaccepted hu hv => ?_⟩⟩
  cases hv
  exact mbox_not_pending_of_execAll hu unaccepted rfl

/-! ## Coalescing -/

/-- The mailbox after edges accepted in these directions: the last one's step, if there is one
(spec/42_input_events.md R182). -/
def Slot.afterEdges (m : Slot) (dirs : List Bool) : Slot := (dirs.getLast?.map (Slot.mk true)).getD m

theorem Slot.afterEdges_nil (m : Slot) : m.afterEdges [] = m := rfl

theorem Slot.afterEdges_singleton (m : Slot) (dir : Bool) : m.afterEdges [dir] = ⟨true, dir⟩ := rfl

theorem Slot.afterEdges_append (m : Slot) (first rest : List Bool) :
    m.afterEdges (first ++ rest) = (m.afterEdges first).afterEdges rest := by
  unfold Slot.afterEdges
  rw [List.getLast?_append]
  cases rest.getLast? <;> rfl

/-- An instruction that is no ENC_TAKE and no RESET writes the mailbox only by an accepted edge (spec/10_state.md
R50). -/
theorem mbox_of_exec {i : Instr} {s t : State} (h : exec i s = .next t) (notReset : i ≠ .reset)
    (notTake : i.runsEncTake = false) : t.mbox = s.mbox.afterEdges (acceptedDirections [i] s) := by
  by_cases hi : i = .edgeA
  · subst hi
    cases h
    rcases edgeStep_cases s with ⟨accepted, recorded⟩ | ⟨rejected, unchanged⟩
    · rw [recorded, acceptedDirections_of_accepted accepted, Slot.afterEdges_singleton]
    · rw [unchanged, acceptedDirections_of_rejected rejected, Slot.afterEdges_nil]
  · rw [acceptedDirections_of_ne_edgeA hi, Slot.afterEdges_nil]
    by_contra changed
    obtain ⟨writers, _⟩ := encoderStateHasItsWriters i s t h
    rcases writers changed with hedge | htake | hreset
    · exact hi hedge
    · exact absurd htake (ne_true_of_eq_false notTake)
    · exact notReset hreset

theorem mbox_of_execAll {run : List Instr} {s t : State} (hrun : ∀ i ∈ run, i ≠ .reset ∧ i.runsEncTake = false)
    (h : execAll run s = .next t) : t.mbox = s.mbox.afterEdges (acceptedDirections run s) := by
  induction run generalizing s with
  | nil =>
    cases h
    rfl
  | cons i run ih =>
    obtain ⟨u, hu, ht⟩ := execAll_cons h
    obtain ⟨⟨notReset, notTake⟩, hrest⟩ := List.forall_mem_cons.mp hrun
    rw [acceptedDirections_cons hu, Slot.afterEdges_append, ← mbox_of_exec hu notReset notTake]
    exact ih hrest ht

/-- Settles O37: the mailbox is what the run's accepted edges make of it, and the next take copies it. -/
theorem acceptedEdgesCoalesce : Obligations.AcceptedEdgesCoalesce := by
  intro run s t hrun h
  have mailbox := mbox_of_execAll hrun h
  unfold Slot.afterEdges at mailbox
  cases hlast : (acceptedDirections run s).getLast? with
  | none =>
    rw [hlast] at mailbox
    exact mailbox
  | some dir =>
    rw [hlast] at mailbox
    exact ⟨mailbox, takeStep t, rfl, mailbox⟩

end Sys2Proof.Machine
end

section
/-! PROOFS. The button and the mode pin (spec/42_input_events.md R185 to R195): what a SAMPLE writes, the independence
of the two detectors, and single and double clicks of the mode pin. -/

namespace Sys2Proof.Machine

/-! ## SAMPLE -/

/-- The double-click window in natural numbers (spec/42_input_events.md R190). -/
theorem withinWindow_eq (rel : Reference) (now : Word) : withinWindow rel now =
    (rel.valid && decide ((now.toNat + 2 ^ 32 - rel.last.toNat) % 2 ^ 32 < 350000)) := by
  rw [withinWindow, elapsed_eq_elapsedUs]
  rfl

theorem exec_sample (s : State) : exec .sample s = .next (sampleStep s) := rfl

/-- Settles O40: the record is that of the WR that issues SAMPLE, and the statement's window is the model's. -/
theorem sampleRaisesItsEvents : Obligations.SampleRaisesItsEvents := by
  refine ⟨rfl, decodeOfEncodeIsInstruction (.wr 0x00 2) rfl, fun s => ⟨exec_wr_cmd_of_decodeCommand rfl s, ?_⟩⟩
  intro release within
  have window : withinWindow s.rel s.time = within := withinWindow_eq s.rel s.time
  rw [exec_sample, sampleStep_eq, ← window]
  rfl

/-! ## The two detectors -/

/-- The button detector reads its own level and its own line (spec/42_input_events.md R187, R194). -/
theorem sampleStep_button_congr {s s' : State} (hprev : s.btnPrev = s'.btnPrev) (hline : s.lines.btn = s'.lines.btn) :
    (sampleStep s).evt.btnClick = (sampleStep s').evt.btnClick ∧ (sampleStep s).btnPrev = (sampleStep s').btnPrev := by
  simp only [sampleStep_eq, sampleEvents, sampleButton, hprev, hline, and_self]

/-- The mode detector reads its own level, its own line, its reference and TIME (spec/42_input_events.md R189 to R191,
R194). -/
theorem sampleStep_mode_congr {s s' : State} (hprev : s.modePrev = s'.modePrev)
    (hline : s.lines.mode = s'.lines.mode) (hrel : s.rel = s'.rel) (htime : s.time = s'.time) :
    (sampleStep s).evt.modeSingle = (sampleStep s').evt.modeSingle ∧
    (sampleStep s).evt.modeDouble = (sampleStep s').evt.modeDouble ∧
    (sampleStep s).modePrev = (sampleStep s').modePrev ∧ (sampleStep s).rel = (sampleStep s').rel := by
  simp only [sampleStep_eq, sampleEvents, releaseReference, hprev, hline, hrel, htime, and_self]

/-- A SAMPLE that sees the mode pin released raises the event that the window decides (spec/42_input_events.md R190). -/
theorem sampleStep_modeEvents_of_window {s : State} (hprev : s.modePrev = true) (h : s.lines.mode = false) :
    (sampleStep s).evt.modeSingle = !withinWindow s.rel s.time ∧
    (sampleStep s).evt.modeDouble = withinWindow s.rel s.time := by
  simp [sampleStep_eq, sampleEvents, modeSingle, modeDouble, modeRelease, hprev, h]

/-- After reset with both lines active at the last SAMPLE and inactive now, so that the next one sees two releases, the
mode pin's release before at `rel`. -/
def State.bothReleased (rel : Reference) : State :=
  { State.reset with btnPrev := true, modePrev := true, rel := rel }

/-- The SAMPLE that sees two releases raises the click, and the mode event that the window decides. -/
theorem sampleStep_bothReleased (rel : Reference) :
    (sampleStep (State.bothReleased rel)).evt = ⟨true, !withinWindow rel 0, withinWindow rel 0⟩ := by
  obtain ⟨hsingle, hdouble⟩ := sampleStep_modeEvents_of_window (s := State.bothReleased rel) rfl rfl
  have hclick := sampleStep_btnClick_of_release (s := State.bothReleased rel) rfl rfl
  exact congr (congr (congrArg Events.mk hclick) hsingle) hdouble

/-- Settles O41: each detector's half of a SAMPLE reads its own state; with no release before, two releases raise
BTN_CLICK and MODE_SINGLE, with one just before, BTN_CLICK and MODE_DOUBLE. -/
theorem buttonAndModeAreIndependent : Obligations.ButtonAndModeAreIndependent := by
  refine ⟨fun s s' t t' ht ht' => ?_, ?_, ?_⟩
  · cases ht
    cases ht'
    exact ⟨sampleStep_button_congr, sampleStep_mode_congr⟩
  · refine ⟨.bothReleased ⟨false, 0⟩, _, rfl, ?_⟩
    rw [sampleStep_bothReleased]
    decide
  · refine ⟨.bothReleased ⟨true, 0⟩, _, rfl, ?_⟩
    rw [sampleStep_bothReleased]
    decide

/-! ## Double clicks -/

/-- The state after the mode pin was pressed, sampled, released and sampled (spec/30_encoding.md R101's `mclick`). -/
def modeClick (s : State) : State := sampleStep (driveMode (sampleStep (driveMode s true)) false)

theorem execAll_modeClick (s : State) : execAll (clickInstrs .setMode) s = .next (modeClick s) := rfl

theorem advanceTime_time (s : State) (d : Word) : (advanceTime s d).time = s.time + d := rfl

theorem advanceTime_rel (s : State) (d : Word) : (advanceTime s d).rel = s.rel := rfl

theorem driveMode_time (s : State) (level : Bool) : (driveMode s level).time = s.time := rfl

theorem driveMode_rel (s : State) (level : Bool) : (driveMode s level).rel = s.rel := rfl

theorem sampleStep_time (s : State) : (sampleStep s).time = s.time := rfl

theorem sampleStep_rel (s : State) : (sampleStep s).rel = releaseReference s := rfl

/-- A SAMPLE that sees the mode pin pressed records no release (spec/42_input_events.md R191). -/
theorem releaseReference_of_pressed {s : State} (h : s.lines.mode = true) : releaseReference s = s.rel := by
  simp [releaseReference, modeRelease, h]

/-- A SAMPLE that sees the mode pin released records the time (spec/42_input_events.md R191). -/
theorem releaseReference_of_released {s : State} (hprev : s.modePrev = true) (h : s.lines.mode = false) :
    releaseReference s = ⟨true, s.time⟩ := by
  simp [releaseReference, modeRelease, hprev, h]

/-- A click raises the event that the window decides at its release; TIME does not pass during it. -/
theorem modeClick_events (s : State) :
    (modeClick s).evt.modeSingle = !withinWindow s.rel s.time ∧
    (modeClick s).evt.modeDouble = withinWindow s.rel s.time := by
  have events := sampleStep_modeEvents_of_window (s := driveMode (sampleStep (driveMode s true)) false) rfl rfl
  rwa [driveMode_time, driveMode_rel, sampleStep_time, sampleStep_rel, releaseReference_of_pressed rfl, driveMode_time,
    driveMode_rel] at events

theorem modeClick_time (s : State) : (modeClick s).time = s.time := by
  rw [modeClick, sampleStep_time, driveMode_time, sampleStep_time, driveMode_time]

/-- A click records its release (spec/42_input_events.md R191). -/
theorem modeClick_rel (s : State) : (modeClick s).rel = ⟨true, s.time⟩ := by
  rw [modeClick, sampleStep_rel, releaseReference_of_released rfl rfl, driveMode_time, sampleStep_time, driveMode_time]

/-- No release within the window, in natural numbers (spec/42_input_events.md R190). -/
theorem withinWindow_eq_false_iff (rel : Reference) (now : Word) : withinWindow rel now = false ↔
    rel.valid = false ∨ 350000 ≤ (now.toNat + 2 ^ 32 - rel.last.toNat) % 2 ^ 32 := by
  rw [withinWindow_eq, Bool.and_eq_false_iff, decide_eq_false_iff_not, not_lt]

/-- A release lies within the window of one `d` later exactly if `d` does (spec/10_state.md R38). -/
theorem withinWindow_add (time d : Word) : withinWindow ⟨true, time⟩ (time + d) = decide (d.toNat < 350000) := by
  rw [withinWindow, elapsed, add_sub_cancel_left]
  rfl

/-- A second click, `d` after the first, is a double click exactly if `d` is below 350 000 µs. -/
theorem modeClick_again_events (s : State) (d : Word) :
    (modeClick (advanceTime (modeClick s) d)).evt.modeSingle = decide (350000 ≤ d.toNat) ∧
    (modeClick (advanceTime (modeClick s) d)).evt.modeDouble = decide (d.toNat < 350000) := by
  have window : withinWindow (advanceTime (modeClick s) d).rel (advanceTime (modeClick s) d).time =
      decide (d.toNat < 350000) := by
    rw [advanceTime_rel, advanceTime_time, modeClick_rel, modeClick_time, withinWindow_add]
  have events := modeClick_events (advanceTime (modeClick s) d)
  rw [window, ← decide_not] at events
  simpa only [not_lt] using events

/-- Settles O42: the first click finds no release within the window, the second finds the first one's, `d` before. -/
theorem doubleClickRaisesSingleThenDouble : Obligations.DoubleClickRaisesSingleThenDouble := by
  intro s d h
  have outside : withinWindow s.rel s.time = false := (withinWindow_eq_false_iff _ _).mpr h
  obtain ⟨single, double⟩ := modeClick_events s
  obtain ⟨single', double'⟩ := modeClick_again_events s d
  have secondRun : execAll (.advance d :: clickInstrs .setMode) (modeClick s) =
      .next (modeClick (advanceTime (modeClick s) d)) :=
    (execAll_cons_of_next rfl).trans (execAll_modeClick _)
  rw [outside] at single double
  exact ⟨_, _, execAll_modeClick s, secondRun, single, double, double', single'⟩

end Sys2Proof.Machine
end

section
/-! PROOFS. IllegalCommand (spec/60_exceptions.md R211, R216, R217): what each instruction does to ILL_CMD, that the
other effects do not read it, and which runs end faulted. -/

namespace Sys2Proof.Machine

/-! ## The sticky bit -/

theorem planStep_illCmd (s : State) : (planStep s).illCmd = s.illCmd := by
  simp only [planStep_frame]

/-- Of the command words, the ones outside the map set ILL_CMD, and no other writes it (spec/40_register_access.md
R118). -/
theorem issueCommand_illCmd (v : Word) (s : State) :
    (issueCommand v s).illCmd = (s.illCmd || decide (3 < v.toNat)) := by
  rcases issueCommand_cases v s with ⟨rfl, h⟩ | ⟨rfl, h⟩ | ⟨rfl, h⟩ | ⟨rfl, h⟩ | ⟨illegal, h⟩ <;> rw [h]
  · exact (Bool.or_false _).symm
  · exact (planStep_illCmd s).trans (Bool.or_false _).symm
  · exact (Bool.or_false _).symm
  · exact (Bool.or_false _).symm
  · rw [decide_eq_true illegal, Bool.or_true]

/-- A WR sets ILL_CMD if it is an illegal command, and else leaves it: no host write clears it
(spec/60_exceptions.md R211). -/
theorem writeReg_illCmd (s : State) (v : Word) (r : Reg) :
    (writeReg s v r).illCmd = (s.illCmd || (Instr.wr (regOffset r) v).isIllegalCommand) := by
  cases r with
  | cmd => exact issueCommand_illCmd v s
  | _ => exact (Bool.or_false _).symm

/-- Outside RESET, ILL_CMD is sticky, and an illegal command sets it. -/
theorem illCmd_of_exec {i : Instr} {s t : State} (h : exec i s = .next t) (notReset : i ≠ .reset) :
    t.illCmd = (s.illCmd || i.isIllegalCommand) := by
  cases i with
  | reset => exact absurd rfl notReset
  | rd off =>
    obtain ⟨r, rfl, rfl⟩ := execRd_next h
    exact (Bool.or_false _).symm
  | wr off v =>
    obtain ⟨r, rfl, rfl⟩ := execWr_next h
    exact writeReg_illCmd s v r
  | plan =>
    cases h
    exact (planStep_illCmd s).trans (Bool.or_false _).symm
  | edgeA =>
    cases h
    have unwritten : (edgeStep s).illCmd = s.illCmd := by simp only [edgeStep_frame]
    exact unwritten.trans (Bool.or_false _).symm
  | _ =>
    cases h
    exact (Bool.or_false _).symm

/-- Settles O17: RESET clears the bit, every other instruction keeps it or sets it. -/
theorem illCmdIsSetByIllegalCommandAndClearedByReset :
    Obligations.IllCmdIsSetByIllegalCommandAndClearedByReset := by
  intro i s t h
  by_cases hi : i = .reset
  · subst hi
    cases h
    exact iff_of_false Bool.false_ne_true (fun ⟨notReset, _⟩ => notReset rfl)
  · rw [State.faulted, State.faulted, illCmd_of_exec h hi, Bool.or_eq_true, and_iff_right hi]

/-! ## The fault does not stop the block -/

/-- Only CORE_STATUS shows ILL_CMD (spec/10_state.md R36). -/
theorem readReg_withIllCmd {r : Reg} (hr : r ≠ .coreStatus) (s : State) (b : Bool) :
    readReg (s.withIllCmd b) r = readReg s r := by
  cases r with
  | coreStatus => exact absurd rfl hr
  | _ => rfl

theorem planStep_withIllCmd (s : State) (b : Bool) : planStep (s.withIllCmd b) = (planStep s).withIllCmd b := by
  have target : planStep (s.withIllCmd b) = recordPlan (s.withIllCmd b) s.planOutcome := rfl
  rw [target, planStep, State.planOutcome]
  cases synthesize (effectiveTarget (planFrequency s) (planOffset s)) <;> rfl

theorem edgeStep_withIllCmd (s : State) (b : Bool) : edgeStep (s.withIllCmd b) = (edgeStep s).withIllCmd b := by
  have judged : edgeStep (s.withIllCmd b) =
      if edgeAccepted s.enc s.time then acceptEdge (s.withIllCmd b) else s.withIllCmd b := rfl
  rw [judged, edgeStep]
  split <;> rfl

/-- A legal command leaves ILL_CMD as it finds it, an illegal one sets it whatever it was (spec/60_exceptions.md
R217). -/
theorem issueCommand_withIllCmd (v : Word) (s : State) (b : Bool) :
    ∃ c, issueCommand v (s.withIllCmd b) = (issueCommand v s).withIllCmd c := by
  unfold issueCommand
  split
  · exact ⟨b, rfl⟩
  · exact ⟨b, planStep_withIllCmd s b⟩
  · exact ⟨b, rfl⟩
  · exact ⟨b, rfl⟩
  · exact ⟨true, rfl⟩

theorem writeReg_withIllCmd (s : State) (v : Word) (r : Reg) (b : Bool) :
    ∃ c, writeReg (s.withIllCmd b) v r = (writeReg s v r).withIllCmd c := by
  cases r with
  | cmd => exact issueCommand_withIllCmd v s b
  | _ => exact ⟨b, rfl⟩

/-- Settles O18: an RD of another register shows the same word, a WR starts the same command or store, and no other
meaning reads the bit. -/
theorem faultStopsNoStep : Obligations.FaultStopsNoStep := by
  intro i s t b notStatus h
  cases i with
  | rd off =>
    obtain ⟨r, rfl, rfl⟩ := execRd_next h
    have other : r ≠ .coreStatus := by
      rintro rfl
      exact notStatus rfl
    exact ⟨b, exec_rd_of_readReg (readReg_withIllCmd other s b)⟩
  | wr off v =>
    obtain ⟨r, rfl, rfl⟩ := execWr_next h
    obtain ⟨c, hc⟩ := writeReg_withIllCmd s v r b
    exact ⟨c, (execWr_regOffset r v _).trans (congrArg Host.Outcome.next hc)⟩
  | plan =>
    cases h
    exact ⟨b, congrArg Host.Outcome.next (planStep_withIllCmd s b)⟩
  | edgeA =>
    cases h
    exact ⟨b, congrArg Host.Outcome.next (edgeStep_withIllCmd s b)⟩
  | reset =>
    cases h
    exact ⟨false, rfl⟩
  | _ =>
    cases h
    exact ⟨b, rfl⟩

/-! ## Faulted runs -/

/-- The run has an illegal command with no RESET after it (spec/60_exceptions.md R211). -/
def IllegalSinceReset (run : List Instr) : Prop :=
  ∃ before after : List Instr, ∃ i, run = before ++ i :: after ∧ i.isIllegalCommand = true ∧ Instr.reset ∉ after

theorem not_illegalSinceReset_nil : ¬ IllegalSinceReset [] := by
  rintro ⟨before, after, i, hrun, _⟩
  exact List.append_ne_nil_of_right_ne_nil before (List.cons_ne_nil i after) hrun.symm

/-- The illegal command is the run's first instruction, or stands in the rest. -/
theorem illegalSinceReset_cons {i : Instr} {run : List Instr} :
    IllegalSinceReset (i :: run) ↔ (i.isIllegalCommand = true ∧ Instr.reset ∉ run) ∨ IllegalSinceReset run := by
  constructor
  · rintro ⟨before, after, j, hrun, illegal, noReset⟩
    rcases List.cons_eq_append_iff.mp hrun with ⟨_, hfirst⟩ | ⟨rest, _, hrest⟩
    · cases hfirst
      exact .inl ⟨illegal, noReset⟩
    · exact .inr ⟨rest, after, j, hrest, illegal, noReset⟩
  · rintro (⟨illegal, noReset⟩ | ⟨before, after, j, rfl, illegal, noReset⟩)
    · exact ⟨[], run, i, rfl, illegal, noReset⟩
    · exact ⟨i :: before, after, j, rfl, illegal, noReset⟩

theorem reset_ne_of_isIllegalCommand {i : Instr} (h : i.isIllegalCommand = true) : Instr.reset ≠ i := by
  rintro rfl
  cases h

/-- An instruction leads to a faulted state from a faulted one if it is no RESET, or by being an illegal command, which
no RESET is. -/
theorem faulted_of_exec {i : Instr} {s t : State} (h : exec i s = .next t) :
    t.faulted = true ↔ (s.faulted = true ∧ Instr.reset ≠ i) ∨ i.isIllegalCommand = true := by
  rw [illCmdIsSetByIllegalCommandAndClearedByReset i s t h, and_or_left, and_comm, ne_comm,
    and_iff_right_of_imp reset_ne_of_isIllegalCommand]

/-- A run from any state ends faulted if the state was and no RESET is taken, or by an illegal command since the last
RESET. -/
theorem faulted_of_execAll {run : List Instr} {s t : State} (h : execAll run s = .next t) :
    t.faulted = true ↔ (s.faulted = true ∧ Instr.reset ∉ run) ∨ IllegalSinceReset run := by
  induction run generalizing s with
  | nil =>
    cases h
    simp [not_illegalSinceReset_nil]
  | cons i run ih =>
    obtain ⟨u, hu, ht⟩ := execAll_cons h
    rw [ih ht, faulted_of_exec hu, illegalSinceReset_cons, List.mem_cons, not_or, or_and_right, or_assoc, and_assoc]

/-- Settles O55: a launch state is not faulted, so only an illegal command since the last RESET is left. -/
theorem runIsFaultedByIllegalCommandSinceReset : Obligations.RunIsFaultedByIllegalCommandSinceReset := by
  intro lines run t h
  have launched : ¬ (State.launch lines []).faulted = true := Bool.false_ne_true
  rw [faulted_of_execAll h, or_iff_right (fun ⟨faulted, _⟩ => launched faulted)]
  exact Iff.rfl

end Sys2Proof.Machine
end

section
/-! PROOFS. Reset and hazards (spec/70_reset_and_hazards.md): what RESET clears, the states a run starts in, the host's
calls after a PLAN, and elapsed times that alias modulo 2^32. -/

namespace Sys2Proof.Machine

/-! ## Elapsed times -/

/-- The sum of words is the sum of their numbers modulo 2^32 (spec/10_state.md R38). -/
theorem toNat_wordSum (ds : List Word) : ds.sum.toNat = (ds.map BitVec.toNat).sum % 2 ^ 32 := by
  induction ds with
  | nil => rfl
  | cons d ds ih => rw [List.sum_cons, BitVec.toNat_add, ih, List.map_cons, List.sum_cons, Nat.add_mod_mod]

/-- Advances one after another are one advance by the sum of them (spec/42_input_events.md R171). -/
theorem execAll_advances (ds : List Word) (s : State) :
    execAll (ds.map .advance) s = .next (advanceTime s ds.sum) := by
  induction ds generalizing s with
  | nil =>
    have unmoved : advanceTime s 0 = s := by
      rw [advanceTime, add_zero]
      rfl
    exact congrArg Host.Outcome.next unmoved.symm
  | cons d ds ih =>
    have merged : advanceTime (advanceTime s d) ds.sum = advanceTime s (d + ds.sum) :=
      congrArg s.withTime (BitVec.add_assoc s.time d ds.sum)
    rw [List.map_cons, execAll_cons_of_next rfl, ih, List.sum_cons, merged]

/-- An edge `d` after the last accepted one is accepted exactly if `d` is at least 500 µs (spec/42_input_events.md
R173). -/
theorem edgeAccepted_add (time d : Word) : edgeAccepted ⟨true, time⟩ (time + d) = decide (500 ≤ d.toNat) := by
  rw [edgeAccepted, elapsed, add_sub_cancel_left]
  rfl

/-- The edge after an advance from a state whose last accepted edge is now. -/
theorem edgeAccepted_advanceTime {s : State} (now : s.enc = ⟨true, s.time⟩) (d : Word) :
    edgeAccepted (advanceTime s d).enc (advanceTime s d).time = decide (500 ≤ d.toNat) := by
  rw [advanceTime_time, ← edgeAccepted_add, ← now]
  rfl

/-- The release seen after an advance from a state whose last release is now is a double click exactly if the advance
is below 350 000 µs (spec/42_input_events.md R190). -/
theorem sampleStep_advanceTime_modeEvents {s : State} (now : s.rel = ⟨true, s.time⟩) (hprev : s.modePrev = true)
    (h : s.lines.mode = false) (d : Word) :
    (sampleStep (advanceTime s d)).evt.modeDouble = decide (d.toNat < 350000) ∧
    (sampleStep (advanceTime s d)).evt.modeSingle = decide (350000 ≤ d.toNat) := by
  obtain ⟨single, double⟩ := sampleStep_modeEvents_of_window (s := advanceTime s d) hprev h
  rw [advanceTime_rel, advanceTime_time, now, withinWindow_add] at single double
  rw [← decide_not] at single
  exact ⟨double, by simpa only [not_lt] using single⟩

/-- Settles O39: the advances are one advance by their sum, a word, whose number decides the edge and the release. -/
theorem elapsedTimesAliasModulo : Obligations.ElapsedTimesAliasModulo := by
  intro s ds
  rw [← toNat_wordSum]
  refine ⟨_, execAll_advances ds s, fun now early => ?_, fun now late => ?_, fun now hprev h => ?_⟩
  · exact exec_edgeA_of_rejected ((edgeAccepted_advanceTime now _).trans (decide_eq_false (not_le.mpr early)))
  · exact ⟨_, exec_edgeA_of_accepted ((edgeAccepted_advanceTime now _).trans (decide_eq_true late)), rfl, rfl⟩
  · exact ⟨_, exec_sample _, sampleStep_advanceTime_modeEvents now hprev h _⟩

/-! ## RESET and the launch states -/

/-- Settles O50: the record is the encoding of RESET, its state is the reset state with the lines kept, and ILL_CMD is
sticky under every other instruction. -/
theorem resetClearsAllButLines : Obligations.ResetClearsAllButLines := by
  refine ⟨decodeOfEncodeIsInstruction .reset rfl, fun s => ⟨resetBlock s, rfl, rfl⟩, fun i s t h set cleared => ?_⟩
  by_contra notReset
  have sticky : t.illCmd = true := by rw [illCmd_of_exec h notReset, set, Bool.true_or]
  exact Bool.false_ne_true (cleared.symm.trans sticky)

/-- Settles O52: RESET leaves every launch state as it is, so it meets the invariant. -/
theorem launchMeetsInvariant : Obligations.LaunchMeetsInvariant :=
  ⟨launch_inv, rfl⟩

/-! ## The host's calls -/

/-- On NO_LOCK the host leaves the synthesizer untouched (spec/70_reset_and_hazards.md R246). -/
theorem hostCalls_of_noLock {s : State} (h : s.lock = .noLock) (p : Nat) : hostCalls p s = [] := by
  rw [hostCalls, h]

/-- On LOCKED and PHASE_LIMITED alike, the host applies the plan (spec/70_reset_and_hazards.md R245). -/
theorem hostCalls_of_lockOfPlan {s : State} {capped : Bool} (h : s.lock = lockOfPlan capped) (p : Nat) :
    hostCalls p s = applyPlanCalls p s := by
  rw [hostCalls, h]
  cases capped <;> rfl

/-- Settles O56: a PLAN without NO_LOCK recorded a plan, and its LOCK is one of the two on which the host applies it. -/
theorem hostAppliesOnlySuccessfulPlans : Obligations.HostAppliesOnlySuccessfulPlans := by
  intro s t p h
  refine ⟨fun noLock => hostCalls_of_noLock noLock p, fun locked => ?_⟩
  obtain ⟨plan, _, rfl⟩ := planned_of_lock h locked
  have lock : (recordPlan s (some plan)).lock = lockOfPlan plan.capped := rfl
  exact hostCalls_of_lockOfPlan lock p

end Sys2Proof.Machine
end
